-- ==== Sys2Proof/Word.lean ====
section
/-!
DEFINITION. The word types of the CHIP-8 core (00_scope R1, R4): data is 8 bits, addresses are 12 bits, an
instruction word is 16 bits, a register number is 0..15. Every quantity is unsigned (00_scope section 5.1).
-/

namespace Sys2Proof

/-- An 8-bit data value (00_scope R1). -/
abbrev Byte := BitVec 8

/-- A 12-bit address, as `PC`, `I` and a stack slot hold it (10_state R12 to R14, decision D33). -/
abbrev Addr := BitVec 12

/-- A 16-bit instruction word (30_encoding R62). -/
abbrev InstrWord := BitVec 16

/-- The number of one of the 16 general registers (10_state R10). -/
abbrev Reg := Fin 16

/-- The number of one of the 16 keys (45_input R117). -/
abbrev Key := Fin 16

/-- The first byte a program occupies, the reset value of `PC` (00_scope R4). -/
abbrev loadAddress : Nat := 0x200

/-- The number of bytes of memory (00_scope R4). -/
abbrev memorySize : Nat := 0x1000

end Sys2Proof
end

