-- ==== Sys2Proof/Syntax.lean ====
section
/-!
DEFINITION. The 34 instructions of 30_encoding R66, one constructor for each row of spec/opcode_table.json, in the
order of the table, with their formats (R63) and the names of their rows.
-/

namespace Sys2Proof

/-- An instruction with its operand fields (30_encoding R62 to R64). `x` and `y` are register numbers, `nn` a byte,
`nnn` an address, `n` a count of sprite rows. -/
inductive Instr where
  /-- `00E0`, R80. -/
  | cls
  /-- `00EE`, R81. -/
  | ret
  /-- `1nnn`, R82. -/
  | jp (nnn : Addr)
  /-- `2nnn`, R83. -/
  | call (nnn : Addr)
  /-- `3xnn`, R84. -/
  | seImm (x : Reg) (nn : Byte)
  /-- `4xnn`, R85. -/
  | sneImm (x : Reg) (nn : Byte)
  /-- `5xy0`, R86. -/
  | seReg (x y : Reg)
  /-- `9xy0`, R87. -/
  | sneReg (x y : Reg)
  /-- `Bnnn`, R88. -/
  | jpV0 (nnn : Addr)
  /-- `6xnn`, R91. -/
  | ldImm (x : Reg) (nn : Byte)
  /-- `7xnn`, R92. -/
  | addImm (x : Reg) (nn : Byte)
  /-- `8xy0`, R93. -/
  | ldReg (x y : Reg)
  /-- `8xy1`, R94. -/
  | orReg (x y : Reg)
  /-- `8xy2`, R95. -/
  | andReg (x y : Reg)
  /-- `8xy3`, R96. -/
  | xorReg (x y : Reg)
  /-- `8xy4`, R97. -/
  | addReg (x y : Reg)
  /-- `8xy5`, R98. -/
  | subReg (x y : Reg)
  /-- `8xy6`, R99. -/
  | shr (x y : Reg)
  /-- `8xy7`, R100. -/
  | subn (x y : Reg)
  /-- `8xyE`, R101. -/
  | shl (x y : Reg)
  /-- `Annn`, R102. -/
  | ldI (nnn : Addr)
  /-- `Fx1E`, R103. -/
  | addI (x : Reg)
  /-- `Fx29`, R104. -/
  | ldF (x : Reg)
  /-- `Fx33`, R105. -/
  | ldB (x : Reg)
  /-- `Fx55`, the register dump, R106. -/
  | ldMemV (x : Reg)
  /-- `Fx65`, the register load, R107. -/
  | ldVMem (x : Reg)
  /-- `Cxnn`, R109. -/
  | rnd (x : Reg) (nn : Byte)
  /-- `Dxyn`, R114. `n` is a count; `Instr.WellFormed` bounds it by its 4-bit field. -/
  | drw (x y : Reg) (n : Nat)
  /-- `Ex9E`, R118. -/
  | skp (x : Reg)
  /-- `ExA1`, R119. -/
  | sknp (x : Reg)
  /-- `Fx0A`, R120. -/
  | ldVK (x : Reg)
  /-- `Fx07`, R124. -/
  | ldVDt (x : Reg)
  /-- `Fx15`, R125. -/
  | ldDtV (x : Reg)
  /-- `Fx18`, R126. -/
  | ldStV (x : Reg)
deriving DecidableEq, Repr

/-- The six formats of 30_encoding R63. -/
inductive Format where
  | z
  | a
  | xb
  | xy
  | xyn
  | x
deriving DecidableEq, Repr

/-- The name of an instruction's row, as spec/opcode_table.json spells it. -/
def Instr.mnemonic : Instr → String
  | .cls => "CLS"
  | .ret => "RET"
  | .jp _ => "JP_nnn"
  | .call _ => "CALL_nnn"
  | .seImm _ _ => "SE_Vx__nn"
  | .sneImm _ _ => "SNE_Vx__nn"
  | .seReg _ _ => "SE_Vx__Vy"
  | .sneReg _ _ => "SNE_Vx__Vy"
  | .jpV0 _ => "JP_V0__nnn"
  | .ldImm _ _ => "LD_Vx__nn"
  | .addImm _ _ => "ADD_Vx__nn"
  | .ldReg _ _ => "LD_Vx__Vy"
  | .orReg _ _ => "OR_Vx__Vy"
  | .andReg _ _ => "AND_Vx__Vy"
  | .xorReg _ _ => "XOR_Vx__Vy"
  | .addReg _ _ => "ADD_Vx__Vy"
  | .subReg _ _ => "SUB_Vx__Vy"
  | .shr _ _ => "SHR_Vx____Vy"
  | .subn _ _ => "SUBN_Vx__Vy"
  | .shl _ _ => "SHL_Vx____Vy"
  | .ldI _ => "LD_I__nnn"
  | .addI _ => "ADD_I__Vx"
  | .ldF _ => "LD_F__Vx"
  | .ldB _ => "LD_B__Vx"
  | .ldMemV _ => "LD__I___Vx"
  | .ldVMem _ => "LD_Vx___I"
  | .rnd _ _ => "RND_Vx__nn"
  | .drw _ _ _ => "DRW_Vx__Vy__n"
  | .skp _ => "SKP_Vx"
  | .sknp _ => "SKNP_Vx"
  | .ldVK _ => "LD_Vx__K"
  | .ldVDt _ => "LD_Vx__DT"
  | .ldDtV _ => "LD_DT__Vx"
  | .ldStV _ => "LD_ST__Vx"

/-- The format of an instruction (30_encoding R63). -/
def Instr.format : Instr → Format
  | .cls => .z
  | .ret => .z
  | .jp _ => .a
  | .call _ => .a
  | .seImm _ _ => .xb
  | .sneImm _ _ => .xb
  | .seReg _ _ => .xy
  | .sneReg _ _ => .xy
  | .jpV0 _ => .a
  | .ldImm _ _ => .xb
  | .addImm _ _ => .xb
  | .ldReg _ _ => .xy
  | .orReg _ _ => .xy
  | .andReg _ _ => .xy
  | .xorReg _ _ => .xy
  | .addReg _ _ => .xy
  | .subReg _ _ => .xy
  | .shr _ _ => .xy
  | .subn _ _ => .xy
  | .shl _ _ => .xy
  | .ldI _ => .a
  | .addI _ => .x
  | .ldF _ => .x
  | .ldB _ => .x
  | .ldMemV _ => .x
  | .ldVMem _ => .x
  | .rnd _ _ => .xb
  | .drw _ _ _ => .xyn
  | .skp _ => .x
  | .sknp _ => .x
  | .ldVK _ => .x
  | .ldVDt _ => .x
  | .ldDtV _ => .x
  | .ldStV _ => .x

end Sys2Proof
end

