-- ==== Sys2Proof/WellFormed.lean ====
section
/-!
DEFINITION. The check on an instruction as syntax. Register numbers, immediate bytes and addresses fit their fields by
their types (30_encoding R62); the sprite row count `n` is a number and must fit its 4-bit field (R62, R64).
-/

namespace Sys2Proof

/-- Every operand fits its field (30_encoding R62): for `DRW` the row count is 0..15. -/
def Instr.WellFormed : Instr → Bool
  | .drw _ _ n => decide (n < 16)
  | .cls => true
  | .ret => true
  | .jp _ => true
  | .call _ => true
  | .seImm _ _ => true
  | .sneImm _ _ => true
  | .seReg _ _ => true
  | .sneReg _ _ => true
  | .jpV0 _ => true
  | .ldImm _ _ => true
  | .addImm _ _ => true
  | .ldReg _ _ => true
  | .orReg _ _ => true
  | .andReg _ _ => true
  | .xorReg _ _ => true
  | .addReg _ _ => true
  | .subReg _ _ => true
  | .shr _ _ => true
  | .subn _ _ => true
  | .shl _ _ => true
  | .ldI _ => true
  | .addI _ => true
  | .ldF _ => true
  | .ldB _ => true
  | .ldMemV _ => true
  | .ldVMem _ => true
  | .rnd _ _ => true
  | .skp _ => true
  | .sknp _ => true
  | .ldVK _ => true
  | .ldVDt _ => true
  | .ldDtV _ => true
  | .ldStV _ => true

end Sys2Proof
end

