-- ==== Sys2Proof/Decode.lean ====
section
/-!
DEFINITION. The decoder, total on any bytes and rejecting by name (30_encoding R62 to R66, R68), then the encoder
written from the same table, the table itself, and the host's entry `decodeTableWord`.
-/

namespace Sys2Proof

/-- Bits 15:12, the opcode class (30_encoding R62). -/
def fieldOp (w : InstrWord) : Nat := (w.extractLsb' 12 4).toNat

/-- Bits 11:8, a register number (30_encoding R62). -/
def fieldX (w : InstrWord) : Reg := ⟨(w.extractLsb' 8 4).toNat, (w.extractLsb' 8 4).isLt⟩

/-- Bits 7:4, a register number (30_encoding R62). -/
def fieldY (w : InstrWord) : Reg := ⟨(w.extractLsb' 4 4).toNat, (w.extractLsb' 4 4).isLt⟩

/-- Bits 3:0, a row count or sub-opcode (30_encoding R62). -/
def fieldN (w : InstrWord) : Nat := (w.extractLsb' 0 4).toNat

/-- Bits 7:0, an immediate byte or sub-opcode (30_encoding R62). -/
def fieldNN (w : InstrWord) : Byte := w.extractLsb' 0 8

/-- Bits 11:0, an address (30_encoding R62). -/
def fieldNNN (w : InstrWord) : Addr := w.extractLsb' 0 12

/-- Why the decoder gives no instruction. -/
inductive DecodeError where
  /-- The word matches no row of the opcode table (30_encoding R68). -/
  | unknownOpcode (w : InstrWord)
  /-- Fewer than the two bytes of a word are given (30_encoding R62). -/
  | truncated
deriving DecidableEq, Repr

/-- Class 0 (30_encoding R65): `00E0`, `00EE`, nothing else. -/
def decodeClass0 (w : InstrWord) : Except DecodeError Instr :=
  if w = 0x00E0#16 then .ok .cls
  else if w = 0x00EE#16 then .ok .ret
  else .error (.unknownOpcode w)

/-- Class 8 (30_encoding R65): the sub-opcode is `n`. -/
def decodeClass8 (w : InstrWord) : Except DecodeError Instr :=
  match fieldN w with
  | 0x0 => .ok (.ldReg (fieldX w) (fieldY w))
  | 0x1 => .ok (.orReg (fieldX w) (fieldY w))
  | 0x2 => .ok (.andReg (fieldX w) (fieldY w))
  | 0x3 => .ok (.xorReg (fieldX w) (fieldY w))
  | 0x4 => .ok (.addReg (fieldX w) (fieldY w))
  | 0x5 => .ok (.subReg (fieldX w) (fieldY w))
  | 0x6 => .ok (.shr (fieldX w) (fieldY w))
  | 0x7 => .ok (.subn (fieldX w) (fieldY w))
  | 0xE => .ok (.shl (fieldX w) (fieldY w))
  | _ => .error (.unknownOpcode w)

/-- Class E (30_encoding R65): the sub-opcode is `nn`. -/
def decodeClassE (w : InstrWord) : Except DecodeError Instr :=
  if fieldNN w = 0x9E#8 then .ok (.skp (fieldX w))
  else if fieldNN w = 0xA1#8 then .ok (.sknp (fieldX w))
  else .error (.unknownOpcode w)

/-- Class F (30_encoding R65): the sub-opcode is `nn`. -/
def decodeClassF (w : InstrWord) : Except DecodeError Instr :=
  if fieldNN w = 0x07#8 then .ok (.ldVDt (fieldX w))
  else if fieldNN w = 0x0A#8 then .ok (.ldVK (fieldX w))
  else if fieldNN w = 0x15#8 then .ok (.ldDtV (fieldX w))
  else if fieldNN w = 0x18#8 then .ok (.ldStV (fieldX w))
  else if fieldNN w = 0x1E#8 then .ok (.addI (fieldX w))
  else if fieldNN w = 0x29#8 then .ok (.ldF (fieldX w))
  else if fieldNN w = 0x33#8 then .ok (.ldB (fieldX w))
  else if fieldNN w = 0x55#8 then .ok (.ldMemV (fieldX w))
  else if fieldNN w = 0x65#8 then .ok (.ldVMem (fieldX w))
  else .error (.unknownOpcode w)

/-- `decode(w)`, the procedure of 30_encoding R65. -/
def decode (w : InstrWord) : Except DecodeError Instr :=
  match fieldOp w with
  | 0x0 => decodeClass0 w
  | 0x1 => .ok (.jp (fieldNNN w))
  | 0x2 => .ok (.call (fieldNNN w))
  | 0x3 => .ok (.seImm (fieldX w) (fieldNN w))
  | 0x4 => .ok (.sneImm (fieldX w) (fieldNN w))
  | 0x5 => if fieldN w = 0 then .ok (.seReg (fieldX w) (fieldY w)) else .error (.unknownOpcode w)
  | 0x6 => .ok (.ldImm (fieldX w) (fieldNN w))
  | 0x7 => .ok (.addImm (fieldX w) (fieldNN w))
  | 0x8 => decodeClass8 w
  | 0x9 => if fieldN w = 0 then .ok (.sneReg (fieldX w) (fieldY w)) else .error (.unknownOpcode w)
  | 0xA => .ok (.ldI (fieldNNN w))
  | 0xB => .ok (.jpV0 (fieldNNN w))
  | 0xC => .ok (.rnd (fieldX w) (fieldNN w))
  | 0xD => .ok (.drw (fieldX w) (fieldY w) (fieldN w))
  | 0xE => decodeClassE w
  | 0xF => decodeClassF w
  | _ => .error (.unknownOpcode w)

/-- The word two bytes spell: big-endian, the byte at the lower address in bits 15..8 (20_memory R43). -/
def wordOfBytes (hi lo : Byte) : InstrWord := hi ++ lo

/-- The byte of a word at the lower address (20_memory R43). -/
def highByte (w : InstrWord) : Byte := w.extractLsb' 8 8

/-- The byte of a word at the higher address (20_memory R43). -/
def lowByte (w : InstrWord) : Byte := w.extractLsb' 0 8

/-- The instruction at the front of a byte sequence and the bytes after it (30_encoding R62). -/
def decodeBytes : List Byte → Except DecodeError (Instr × List Byte)
  | hi :: lo :: rest =>
    match decode (wordOfBytes hi lo) with
    | .ok i => .ok (i, rest)
    | .error e => .error e
  | [_] => .error .truncated
  | [] => .error .truncated

/-- A register number as the 4 bits of its field. -/
def regBits (x : Reg) : BitVec 4 := BitVec.ofNat 4 x.val

/-- Format `A` (30_encoding R63). -/
def wordA (op : BitVec 4) (nnn : Addr) : InstrWord := op ++ nnn

/-- Formats `XB` and `X` (30_encoding R63). -/
def wordXB (op : BitVec 4) (x : Reg) (nn : Byte) : InstrWord := op ++ regBits x ++ nn

/-- Formats `XY` and `XYN` (30_encoding R63). -/
def wordXYN (op : BitVec 4) (x y : Reg) (n : BitVec 4) : InstrWord := op ++ regBits x ++ regBits y ++ n

/-- The word of an instruction, from the patterns of 30_encoding R66. -/
def encode : Instr → InstrWord
  | .cls => 0x00E0#16
  | .ret => 0x00EE#16
  | .jp nnn => wordA 0x1#4 nnn
  | .call nnn => wordA 0x2#4 nnn
  | .seImm x nn => wordXB 0x3#4 x nn
  | .sneImm x nn => wordXB 0x4#4 x nn
  | .seReg x y => wordXYN 0x5#4 x y 0x0#4
  | .sneReg x y => wordXYN 0x9#4 x y 0x0#4
  | .jpV0 nnn => wordA 0xB#4 nnn
  | .ldImm x nn => wordXB 0x6#4 x nn
  | .addImm x nn => wordXB 0x7#4 x nn
  | .ldReg x y => wordXYN 0x8#4 x y 0x0#4
  | .orReg x y => wordXYN 0x8#4 x y 0x1#4
  | .andReg x y => wordXYN 0x8#4 x y 0x2#4
  | .xorReg x y => wordXYN 0x8#4 x y 0x3#4
  | .addReg x y => wordXYN 0x8#4 x y 0x4#4
  | .subReg x y => wordXYN 0x8#4 x y 0x5#4
  | .shr x y => wordXYN 0x8#4 x y 0x6#4
  | .subn x y => wordXYN 0x8#4 x y 0x7#4
  | .shl x y => wordXYN 0x8#4 x y 0xE#4
  | .ldI nnn => wordA 0xA#4 nnn
  | .addI x => wordXB 0xF#4 x 0x1E#8
  | .ldF x => wordXB 0xF#4 x 0x29#8
  | .ldB x => wordXB 0xF#4 x 0x33#8
  | .ldMemV x => wordXB 0xF#4 x 0x55#8
  | .ldVMem x => wordXB 0xF#4 x 0x65#8
  | .rnd x nn => wordXB 0xC#4 x nn
  | .drw x y n => wordXYN 0xD#4 x y (BitVec.ofNat 4 n)
  | .skp x => wordXB 0xE#4 x 0x9E#8
  | .sknp x => wordXB 0xE#4 x 0xA1#8
  | .ldVK x => wordXB 0xF#4 x 0x0A#8
  | .ldVDt x => wordXB 0xF#4 x 0x07#8
  | .ldDtV x => wordXB 0xF#4 x 0x15#8
  | .ldStV x => wordXB 0xF#4 x 0x18#8

/-- A row of the table of 30_encoding R66. -/
structure OpcodeRow where
  mnemonic : String
  format : Format
  mask : InstrWord
  fixed : InstrWord
deriving DecidableEq, Repr

/-- `(w and mask) = match` (30_encoding R65). -/
def OpcodeRow.matchesWord (r : OpcodeRow) (w : InstrWord) : Bool := (w &&& r.mask) = r.fixed

/-- Rows 1 to 9 of 30_encoding R66. -/
def rowsControlFlow : List OpcodeRow := [
  ⟨"CLS", .z, 0xFFFF, 0x00E0⟩,
  ⟨"RET", .z, 0xFFFF, 0x00EE⟩,
  ⟨"JP_nnn", .a, 0xF000, 0x1000⟩,
  ⟨"CALL_nnn", .a, 0xF000, 0x2000⟩,
  ⟨"SE_Vx__nn", .xb, 0xF000, 0x3000⟩,
  ⟨"SNE_Vx__nn", .xb, 0xF000, 0x4000⟩,
  ⟨"SE_Vx__Vy", .xy, 0xF00F, 0x5000⟩,
  ⟨"SNE_Vx__Vy", .xy, 0xF00F, 0x9000⟩,
  ⟨"JP_V0__nnn", .a, 0xF000, 0xB000⟩]

/-- Rows 10 to 20 of 30_encoding R66. -/
def rowsRegisterOps : List OpcodeRow := [
  ⟨"LD_Vx__nn", .xb, 0xF000, 0x6000⟩,
  ⟨"ADD_Vx__nn", .xb, 0xF000, 0x7000⟩,
  ⟨"LD_Vx__Vy", .xy, 0xF00F, 0x8000⟩,
  ⟨"OR_Vx__Vy", .xy, 0xF00F, 0x8001⟩,
  ⟨"AND_Vx__Vy", .xy, 0xF00F, 0x8002⟩,
  ⟨"XOR_Vx__Vy", .xy, 0xF00F, 0x8003⟩,
  ⟨"ADD_Vx__Vy", .xy, 0xF00F, 0x8004⟩,
  ⟨"SUB_Vx__Vy", .xy, 0xF00F, 0x8005⟩,
  ⟨"SHR_Vx____Vy", .xy, 0xF00F, 0x8006⟩,
  ⟨"SUBN_Vx__Vy", .xy, 0xF00F, 0x8007⟩,
  ⟨"SHL_Vx____Vy", .xy, 0xF00F, 0x800E⟩]

/-- Rows 21 to 26 of 30_encoding R66. -/
def rowsIndexMemory : List OpcodeRow := [
  ⟨"LD_I__nnn", .a, 0xF000, 0xA000⟩,
  ⟨"ADD_I__Vx", .x, 0xF0FF, 0xF01E⟩,
  ⟨"LD_F__Vx", .x, 0xF0FF, 0xF029⟩,
  ⟨"LD_B__Vx", .x, 0xF0FF, 0xF033⟩,
  ⟨"LD__I___Vx", .x, 0xF0FF, 0xF055⟩,
  ⟨"LD_Vx___I", .x, 0xF0FF, 0xF065⟩]

/-- Rows 27 to 34 of 30_encoding R66. -/
def rowsDevices : List OpcodeRow := [
  ⟨"RND_Vx__nn", .xb, 0xF000, 0xC000⟩,
  ⟨"DRW_Vx__Vy__n", .xyn, 0xF000, 0xD000⟩,
  ⟨"SKP_Vx", .x, 0xF0FF, 0xE09E⟩,
  ⟨"SKNP_Vx", .x, 0xF0FF, 0xE0A1⟩,
  ⟨"LD_Vx__K", .x, 0xF0FF, 0xF00A⟩,
  ⟨"LD_Vx__DT", .x, 0xF0FF, 0xF007⟩,
  ⟨"LD_DT__Vx", .x, 0xF0FF, 0xF015⟩,
  ⟨"LD_ST__Vx", .x, 0xF0FF, 0xF018⟩]

/-- The table of 30_encoding R66, in its order. -/
def opcodeTable : List OpcodeRow := rowsControlFlow ++ rowsRegisterOps ++ rowsIndexMemory ++ rowsDevices

/-- The bytes of a table word as the hardware stores them, the first at the lowest address (20_memory R43). Every row of the
table has 16 bits; bits at or above `nbits` are 0. -/
def tableWordBytes (nbits w : Nat) : List Byte :=
  [highByte (BitVec.ofNat 16 (w % 2 ^ nbits)), lowByte (BitVec.ofNat 16 (w % 2 ^ nbits))]

/-- The instruction the decoder reads from an instruction whose bits are `w`, numbered as spec/opcode_table.json numbers
them. DESIGN CHOICE, safe: of more than 16 bits only the first word is read (log entry 12). -/
def decodeTableWord (nbits w : Nat) : Option Instr :=
  match decodeBytes (tableWordBytes nbits w) with
  | .ok (i, _) => some i
  | .error _ => none

end Sys2Proof
end

