-- ==== Sys2Proof/Config.lean ====
section
/-!
DEFINITION. The parameters of 00_scope R5, which are constants of a configured core (10_state R20), and the free
value of the model: the byte a host supplies on `rand` (43_random R110).
-/

namespace Sys2Proof

/-- What an unknown opcode does to `PC` (30_encoding R68, decision D5). -/
inductive UnknownOpcodePolicy where
  | halt
  | skip
deriving DecidableEq, Repr

/-- Which register the shifts read (41_register_ops R99, R101, decision D8). -/
inductive ShiftSource where
  | vx
  | vy
deriving DecidableEq, Repr

/-- The parameters of 00_scope R5. The type of `fontBase` is the constraint `FONT_BASE + 79 <= 0x1FF`. -/
structure Config where
  fontBase : Fin 0x1B1
  font : Vector Byte 80
  unknownOpcodePolicy : UnknownOpcodePolicy
  shiftSource : ShiftSource
  loadStoreIncrementsI : Bool
deriving DecidableEq, Repr

/-- The glyphs of the digits 0 to 7 (20_memory R46). -/
def Config.glyphsLow : List Byte :=
  [0xF0, 0x90, 0x90, 0x90, 0xF0] ++ [0x20, 0x60, 0x20, 0x20, 0x70] ++
  [0xF0, 0x10, 0xF0, 0x80, 0xF0] ++ [0xF0, 0x10, 0xF0, 0x10, 0xF0] ++
  [0x90, 0x90, 0xF0, 0x10, 0x10] ++ [0xF0, 0x80, 0xF0, 0x10, 0xF0] ++
  [0xF0, 0x80, 0xF0, 0x90, 0xF0] ++ [0xF0, 0x10, 0x20, 0x40, 0x40]

/-- The glyphs of the digits 8 to F (20_memory R46). -/
def Config.glyphsHigh : List Byte :=
  [0xF0, 0x90, 0xF0, 0x90, 0xF0] ++ [0xF0, 0x90, 0xF0, 0x10, 0xF0] ++
  [0xF0, 0x90, 0xF0, 0x90, 0x90] ++ [0xE0, 0x90, 0xE0, 0x90, 0xE0] ++
  [0xF0, 0x80, 0x80, 0x80, 0xF0] ++ [0xE0, 0x90, 0x90, 0x90, 0xE0] ++
  [0xF0, 0x80, 0xF0, 0x80, 0xF0] ++ [0xF0, 0x80, 0xF0, 0x80, 0x80]

/-- The default glyph table, 16 glyphs of 5 bytes (20_memory R46, decision D12). -/
def Config.standardFont : Vector Byte 80 :=
  ⟨(Config.glyphsLow ++ Config.glyphsHigh).toArray, rfl⟩

/-- The defaults of 00_scope R5. -/
def Config.default : Config where
  fontBase := 0x050
  font := Config.standardFont
  unknownOpcodePolicy := .halt
  shiftSource := .vx
  loadStoreIncrementsI := false

/-- The free byte the host supplies on `rand` when nothing in the state names one, one for each draw. It has no
body: 43_random R110 puts no law on it. DESIGN CHOICE, safe: log entry 2. -/
opaque Config.freeRand : Nat → Byte

end Sys2Proof
end

