-- ==== Sys2Proof/Machine/State.lean ====
section
/-!
DEFINITION. The state of the core (10_state R10 to R19, 20_memory R40) as plain data, beside the parameters of the
configured core (R20) and the model's own record of what the host will do (log entries 1 to 3), and its value at reset
(70_reset R160).
-/

namespace Sys2Proof.Machine

/-- The two states of the dispatcher (10_state R18). -/
inductive Mode where
  | running
  | awaitingKey
deriving DecidableEq, Repr

/-- The framebuffer: 32 rows of 64 pixels, `true` a set pixel (10_state R16). -/
abbrev Framebuffer := Vector (Vector Bool 64) 32

/-- Memory: the bytes that differ from what `Memory.resetByte` gives their address, sorted by address
(20_memory R40, log entry 7). -/
abbrev Memory := List Host.Cell

/-- The state-changing operations of 00_scope R3. -/
inductive HostOp where
  | reset
  | loadProgram (bytes : List Byte)
  | step (rand : Byte)
  | tickTimers
  | setKey (k : Key) (pressed : Bool)
deriving DecidableEq, Repr

/-- The model's own record of the host's side; no part of the core (log entries 2, 3, 6, 8). -/
structure Env where
  /-- The host operations still to come, the next one first (00_scope R2). -/
  script : List HostOp
  /-- The value on the input `rand` of the present step (43_random R110). -/
  rand : Byte
  /-- How many free values have been drawn for `rand`. -/
  draws : Nat
  /-- No step and no accepted `loadProgram` since the last reset (70_reset R165, decision D26). -/
  loadOpen : Bool
deriving DecidableEq, Repr

/-- The state of the core. Field by field: INVENTORY.md, State. -/
structure State where
  /-- The parameters of the configured core (00_scope R5, 10_state R20). -/
  cfg : Config
  /-- `V[0]` to `V[15]` (10_state R10, R11). -/
  v : Vector Byte 16
  /-- The index register `I` (10_state R13). -/
  index : Addr
  /-- `PC` (10_state R12). -/
  pc : Addr
  /-- `SP`, the number of return addresses held (10_state R14). -/
  sp : Fin 17
  /-- The stack slots `STK` (10_state R14). -/
  stk : Vector Addr 16
  /-- The delay timer `DT` (10_state R15). -/
  dt : Byte
  /-- The sound timer `ST` (10_state R15). -/
  st : Byte
  /-- The framebuffer `FB` (10_state R16). -/
  fb : Framebuffer
  /-- The key flags `KEY` (10_state R17). -/
  key : Vector Bool 16
  /-- `MEM` (20_memory R40). -/
  mem : Memory
  /-- `MODE` (10_state R18). -/
  mode : Mode
  /-- `WAITX` (10_state R18). -/
  waitX : Reg
  /-- The host's side. -/
  env : Env
deriving DecidableEq, Repr

/-- The error record `Err(kind, word, pc, addr)` less its kind (60_exceptions R131). -/
structure ErrorRecord where
  /-- The fetched word, absent when the fetch failed. -/
  word : Option InstrWord
  /-- `PC` at the start of the failing step. -/
  pc : Addr
  /-- The first address out of range, for `AddressOutOfRange` alone. -/
  addr : Option Nat
deriving DecidableEq, Repr

/-- The six error kinds of 60_exceptions R130. Each is the error the spec names, handed to the host, which ends the run
(R137); all are safe: the core itself stops there (log entry 4). -/
inductive Fault where
  /-- Raised by the fetch, `DRW`, `LD B, Vx`, `LD [I], Vx` and `LD Vx, [I]` (60_exceptions R132). Safe. -/
  | addressOutOfRange (e : ErrorRecord)
  /-- Raised by `CALL` with `SP = 16` (60_exceptions R132). Safe. -/
  | stackOverflow (e : ErrorRecord)
  /-- Raised by `RET` with `SP = 0` (60_exceptions R132). Safe. -/
  | stackUnderflow (e : ErrorRecord)
  /-- Raised by the step for a word that matches no row of the opcode table (30_encoding R68). Safe. -/
  | unknownOpcode (e : ErrorRecord)
  /-- Returned by `loadProgram` for more than 3584 bytes (20_memory R47, 60_exceptions R140). Safe. -/
  | programTooLarge
  /-- Raised by nothing: the kind exists in R130 and is unreachable by R139. Safe. -/
  | invalidRegister (e : ErrorRecord)
deriving DecidableEq, Repr

/-- Why the model gives no next state and no error of the core. -/
inductive Refusal where
  /-- An arm of `exec` whose instruction has no meaning yet raises it. No arm does. Safe. -/
  | notModelled (mnemonic : String)
  /-- Raised by a `loadProgram` after the first step or after an accepted `loadProgram`: outside the host's contract,
  and a model should refuse it (70_reset R165, decision D26). Safe. -/
  | loadOutOfContract
deriving DecidableEq, Repr

/-- What an operation of this machine ends in. -/
abbrev Result := Host.Outcome State Fault Refusal

/-- The values of 70_reset R160, for a configured core and whatever the host will do next. -/
def State.resetWith (cfg : Config) (env : Env) : State where
  cfg := cfg
  v := Vector.replicate 16 0
  index := 0
  pc := 0x200
  sp := 0
  stk := Vector.replicate 16 0
  dt := 0
  st := 0
  fb := Vector.replicate 32 (Vector.replicate 64 false)
  key := Vector.replicate 16 false
  mem := []
  mode := .running
  waitX := 0
  env := env

/-- No operation scripted, no value drawn, the load still open. DESIGN CHOICE for `script`, `rand` and `draws`, which
are the model's own: log entry 6. -/
def Env.initial : Env where
  script := []
  rand := 0
  draws := 0
  loadOpen := true

/-- The core right after reset (70_reset R160) at the default parameters (00_scope R5). -/
def State.reset : State := State.resetWith Config.default Env.initial

end Sys2Proof.Machine
end

