-- ==== Sys2Proof/Machine/Memory.lean ====
section
/-!
DEFINITION. The one address space (20_memory R40): what a byte reads as, reads and writes of one byte, blocks of bytes
at ascending addresses (R48), and the canonical form of the list that holds the bytes.
-/

namespace Sys2Proof.Machine

/-- What an address reads as when the list does not name it: its content at reset (20_memory R45, 70_reset R160). -/
def Memory.resetByte (cfg : Config) (a : Nat) : Byte :=
  if h : cfg.fontBase.val ≤ a ∧ a - cfg.fontBase.val < 80 then cfg.font[a - cfg.fontBase.val]'h.2 else 0

/-- The byte listed for an address, if one is. -/
def Memory.find : Memory → Nat → Option Byte
  | [], _ => none
  | (b, v) :: m, a => if b = a then some v else Memory.find m a

/-- The byte an address of memory holds. -/
def Memory.read (cfg : Config) (m : Memory) (a : Nat) : Byte := (Memory.find m a).getD (Memory.resetByte cfg a)

/-- List a byte at its place by address. -/
def Memory.insert (a : Nat) (v : Byte) : Memory → Memory
  | [] => [(a, v)]
  | c :: m => if a < c.1 then (a, v) :: c :: m else c :: Memory.insert a v m

/-- Take an address off the list. -/
def Memory.erase (m : Memory) (a : Nat) : Memory := m.filter fun c => c.1 != a

/-- Store a byte: list it, unless it is what an unlisted address reads as. -/
def Memory.write (cfg : Config) (m : Memory) (a : Nat) (v : Byte) : Memory :=
  if v = Memory.resetByte cfg a then Memory.erase m a else Memory.insert a v (Memory.erase m a)

/-- Store bytes at ascending addresses (20_memory R48). -/
def Memory.writeBlock (cfg : Config) (m : Memory) (a : Nat) : List Byte → Memory
  | [] => m
  | v :: vs => Memory.writeBlock cfg (Memory.write cfg m a v) (a + 1) vs

/-- The addresses rise strictly from a lower bound. -/
def Memory.sortedFrom : Nat → Memory → Bool
  | _, [] => true
  | lo, c :: m => decide (lo ≤ c.1) && Memory.sortedFrom (c.1 + 1) m

/-- The canonical form: strictly rising addresses, all inside memory, no entry equal to what an unlisted address reads as. -/
def Memory.wf (cfg : Config) (m : Memory) : Bool :=
  Memory.sortedFrom 0 m && m.all fun c => decide (c.1 < memorySize) && decide (c.2 ≠ Memory.resetByte cfg c.1)

end Sys2Proof.Machine
end

