-- ==== Sys2Proof/Machine/Ops.lean ====
section
/-!
DEFINITION. The named operations over the state: one setter for each element, the `PC` updates of 10_state R12, the stack
of R14, the timer access of 46_timers, the memory primitives of 20_memory R41, R42 and 42_index_memory R108, the fetch
of 30_encoding R61, and raising an error (60_exceptions R131, R133, R136).
-/

namespace Sys2Proof.Machine

/-- `V[x]` (10_state R10). -/
def State.getV (s : State) (x : Reg) : Byte := s.v.get x

/-- `V[x] <- b` (10_state R10). -/
def State.setV (s : State) (x : Reg) (b : Byte) : State := { s with v := s.v.set x.val b x.isLt }

/-- Replace the whole register file. -/
def State.setRegs (s : State) (v : Vector Byte 16) : State := { s with v := v }

/-- `I <- a` (10_state R13). -/
def State.setIndex (s : State) (a : Addr) : State := { s with index := a }

/-- `pc <- a` (10_state R12; the width of `Addr` is `mask12`). -/
def State.setPc (s : State) (a : Addr) : State := { s with pc := a }

/-- Replace `SP` and the slots. -/
def State.setStack (s : State) (sp : Fin 17) (stk : Vector Addr 16) : State := { s with sp := sp, stk := stk }

/-- `setDelay` (46_timers). -/
def State.setDelay (s : State) (b : Byte) : State := { s with dt := b }

/-- `setSound` (46_timers). -/
def State.setSound (s : State) (b : Byte) : State := { s with st := b }

/-- Replace the framebuffer. -/
def State.setFb (s : State) (fb : Framebuffer) : State := { s with fb := fb }

/-- `KEY[k] <- b` (10_state R17). -/
def State.setKeyFlag (s : State) (k : Key) (b : Bool) : State := { s with key := s.key.set k.val b k.isLt }

/-- Replace memory. -/
def State.setMem (s : State) (m : Memory) : State := { s with mem := m }

/-- `MODE <- m` (10_state R18). -/
def State.setMode (s : State) (m : Mode) : State := { s with mode := m }

/-- `WAITX <- x` (10_state R18). -/
def State.setWaitX (s : State) (x : Reg) : State := { s with waitX := x }

/-- Replace the host's side. -/
def State.setEnv (s : State) (e : Env) : State := { s with env := e }

/-- `KEY[k]` (10_state R17). -/
def State.keyDown (s : State) (k : Key) : Bool := s.key.get k

/-- `STK[j]` (10_state R14). -/
def State.slot (s : State) (j : Fin 16) : Addr := s.stk.get j

/-- `NEXT = mask12(PC + 2)` (00_scope section 5.4). -/
def State.next (s : State) : Addr := s.pc + 2

/-- `SKIPPED = mask12(PC + 4)` (00_scope section 5.4). -/
def State.skipped (s : State) : Addr := s.pc + 4

/-- `pc <- NEXT`. -/
def State.advance (s : State) : State := s.setPc s.next

/-- `if c then pc <- SKIPPED else pc <- NEXT` (40_control_flow R84 to R87). -/
def State.skipIf (s : State) (c : Bool) : State := s.setPc (if c then s.skipped else s.next)

/-- `push(a)`, nothing when `SP = 16` (10_state R14). -/
def State.push (s : State) (a : Addr) : Option State :=
  if h : s.sp.val < 16 then
    some (s.setStack ⟨s.sp.val + 1, by omega⟩ (s.stk.set s.sp.val a h))
  else none

/-- `pop()`: the address and the state after, nothing when `SP = 0`; the slot keeps its value (10_state R14). -/
def State.pop (s : State) : Option (Addr × State) :=
  if h : 0 < s.sp.val then
    some (s.slot ⟨s.sp.val - 1, by omega⟩, s.setStack ⟨s.sp.val - 1, by omega⟩ s.stk)
  else none

/-- The byte at an address of memory. -/
def State.byteAt (s : State) (a : Nat) : Byte := Memory.read s.cfg s.mem a

/-- `MemRead(addr, 1)`, nothing when it raises (20_memory R41). -/
def State.memRead (s : State) (a : Nat) : Option Byte := if a ≤ 0xFFF then some (s.byteAt a) else none

/-- `MemWrite(addr, 1, v)`, nothing when it raises (20_memory R42). -/
def State.memWrite (s : State) (a : Nat) (v : Byte) : Option State :=
  if a ≤ 0xFFF then some (s.setMem (Memory.write s.cfg s.mem a v)) else none

/-- Store bytes at ascending addresses; its callers have checked the block. -/
def State.storeBytes (s : State) (a : Nat) (bs : List Byte) : State := s.setMem (Memory.writeBlock s.cfg s.mem a bs)

/-- `check_block(m)` passes: `I + m <= 0xFFF` (42_index_memory R108). -/
def State.blockFits (s : State) (m : Nat) : Bool := decide (s.index.toNat + m ≤ 0xFFF)

/-- `I + j`, the natural number a block access reaches (42_index_memory R108). -/
def State.blockAddr (s : State) (j : Nat) : Nat := s.index.toNat + j

/-- The `n` bytes from `I` upwards. -/
def State.bytesAtIndex (s : State) (n : Nat) : List Byte := (List.range n).map fun j => s.byteAt (s.blockAddr j)

/-- `I <- mask12(I + x + 1)` when `LOADSTORE_INCREMENTS_I`, else `I` unchanged (42_index_memory R106, R107). -/
def State.bumpIndex (s : State) (x : Reg) : State :=
  if s.cfg.loadStoreIncrementsI then s.setIndex (s.index + BitVec.ofNat 12 (x.val + 1)) else s

/-- The instruction word at `PC`, nothing when its second byte lies outside memory (30_encoding R61). -/
def State.fetch (s : State) : Option InstrWord :=
  match s.memRead s.pc.toNat, s.memRead (s.pc.toNat + 1) with
  | some hi, some lo => some (wordOfBytes hi lo)
  | _, _ => none

/-- The one way an error is raised: the run ends with the record of 60_exceptions R131, and nothing is written (R133,
R136). -/
def raise (kind : ErrorRecord → Fault) (word : Option InstrWord) (addr : Option Nat) (s : State) : Result :=
  .fault (kind { word := word, pc := s.pc, addr := addr })

/-- The first address outside memory, which every `AddressOutOfRange` reports (60_exceptions R131). -/
def firstBadAddress : Nat := 0x1000

/-- An instruction's error. Its record names the instruction's word, which is the fetched one, since each word that
decodes to an instruction is that instruction's encoding. DEDUCED, safe: log entry 11. -/
def raiseIn (i : Instr) (kind : ErrorRecord → Fault) (s : State) : Result := raise kind (some (encode i)) none s

/-- `AddressOutOfRange(0x1000)` from a block access of an instruction (42_index_memory R108). -/
def raiseBlock (i : Instr) (s : State) : Result :=
  raise Fault.addressOutOfRange (some (encode i)) (some firstBadAddress) s

/-- `AddressOutOfRange(0x1000)` from the fetch, the word absent (30_encoding R61). -/
def raiseFetch (s : State) : Result := raise Fault.addressOutOfRange none (some firstBadAddress) s

/-- `unknown_opcode(w)`: the error it reports (30_encoding R68). -/
def raiseUnknown (w : InstrWord) (s : State) : Result := raise Fault.unknownOpcode (some w) none s

/-- The state the core holds after a step of `s` has returned an error: `s`, but for `PC <- NEXT` on an unknown opcode
under the policy `SKIP` (60_exceptions R133, 30_encoding R68). The end of the run is the model's fault (R137); this is
what a host that goes on regardless finds. -/
def State.afterFault (s : State) : Fault → State
  | .unknownOpcode _ =>
    match s.cfg.unknownOpcodePolicy with
    | .skip => s.advance
    | .halt => s
  | .addressOutOfRange _ => s
  | .stackOverflow _ => s
  | .stackUnderflow _ => s
  | .programTooLarge => s
  | .invalidRegister _ => s

end Sys2Proof.Machine
end

