-- ==== Sys2Proof/Machine/Operands.lean ====
section
/-!
DEFINITION. The operand forms beyond a plain register or immediate (30_encoding R64): the low nibble of a register, the
shift source, the computed addresses, the decimal digits, and the exact arithmetic of 41_register_ops R90 with its
truncation.
-/

namespace Sys2Proof.Machine

/-- The register that holds the flag (10_state R11). -/
def vf : Reg := 15

/-- `trunc8` of an exact sum or shift (00_scope section 5.1). -/
def trunc8 (t : Nat) : Byte := BitVec.ofNat 8 t

/-- `(a − b) mod 256` of an exact difference (00_scope section 5.1). -/
def truncDiff (t : Int) : Byte := BitVec.ofInt 8 t

/-- `mask12` (00_scope section 5.1). -/
def mask12 (t : Nat) : Addr := BitVec.ofNat 12 t

/-- The exact sum, 0..510 (41_register_ops R97). -/
def exactSum (a b : Byte) : Nat := a.toNat + b.toNat

/-- The exact difference, −255..255 (41_register_ops R98). -/
def exactDiff (a b : Byte) : Int := (a.toNat : Int) - (b.toNat : Int)

/-- `s << 1` before truncation, 0..510 (41_register_ops R101). -/
def exactShl (a : Byte) : Nat := a.toNat <<< 1

/-- `s >> 1` (41_register_ops R99). -/
def shiftRight1 (a : Byte) : Byte := a >>> 1

/-- The register the shifts read (41_register_ops R99, R101). -/
def State.shiftOperand (s : State) (x y : Reg) : Byte :=
  match s.cfg.shiftSource with
  | .vx => s.getV x
  | .vy => s.getV y

/-- `V[x][3:0]` as a number 0..15: a digit (42_index_memory R104) or a key (45_input R117). -/
def State.lowNibble (s : State) (x : Reg) : Fin 16 :=
  ⟨((s.getV x).extractLsb' 0 4).toNat, ((s.getV x).extractLsb' 0 4).isLt⟩

/-- `FONT_BASE + 5 * d` (42_index_memory R104). -/
def glyphAddr (cfg : Config) (d : Fin 16) : Addr := mask12 (cfg.fontBase.val + 5 * d.val)

/-- `mask12(nnn + V[0])` (40_control_flow R88). -/
def State.jumpV0Target (s : State) (nnn : Addr) : Addr := mask12 (nnn.toNat + (s.getV 0).toNat)

/-- `mask12(I + V[x])` (42_index_memory R103). -/
def State.indexPlus (s : State) (x : Reg) : Addr := mask12 (s.index.toNat + (s.getV x).toNat)

/-- The hundreds, tens and ones of a byte, most significant first (42_index_memory R105). -/
def decimalDigits (b : Byte) : List Byte :=
  [trunc8 (b.toNat / 100), trunc8 (b.toNat / 10 % 10), trunc8 (b.toNat % 10)]

/-- `V[0]` to `V[x]`, in order (42_index_memory R106). -/
def State.regsUpTo (s : State) (x : Reg) : List Byte := s.v.toList.take (x.val + 1)

/-- The register file with `V[i]` read from `I + i` for i = 0..x (42_index_memory R107). -/
def State.regsLoaded (s : State) (x : Reg) : Vector Byte 16 :=
  Vector.ofFn fun r => if r.val ≤ x.val then s.byteAt (s.blockAddr r.val) else s.getV r

end Sys2Proof.Machine
end

