-- ==== Sys2Proof/Machine/Sprite.lean ====
section
/-!
DEFINITION. The XOR-sprite engine (44_display R111 to R113, R116): pixels, `clear`, and `drawSprite` as the two nested
loops of R113.
-/

namespace Sys2Proof.Machine

/-- `FB[row][col]` (10_state R16, 44_display R116). -/
def Framebuffer.pixel (fb : Framebuffer) (row : Fin 32) (col : Fin 64) : Bool := (Vector.get fb row).get col

/-- `FB[row][col] <- b` (10_state R16). -/
def Framebuffer.setPixel (fb : Framebuffer) (row : Fin 32) (col : Fin 64) (b : Bool) : Framebuffer :=
  Vector.set fb row.val ((Vector.get fb row).set col.val b col.isLt) row.isLt

/-- The framebuffer `clear()` leaves (44_display R112). -/
def Framebuffer.blank : Framebuffer := Vector.replicate 32 (Vector.replicate 64 false)

/-- `(y0 + r) mod 32` (44_display R111). -/
def spriteRow (y0 : Byte) (r : Nat) : Fin 32 := ⟨(y0.toNat + r) % 32, Nat.mod_lt _ (by decide)⟩

/-- `(x0 + b) mod 64` (44_display R111). -/
def spriteCol (x0 : Byte) (b : Nat) : Fin 64 := ⟨(x0.toNat + b) % 64, Nat.mod_lt _ (by decide)⟩

/-- The pixel of a sprite byte at horizontal offset `b`: bit `7 − b` (44_display R111). -/
def spriteBit (row : Byte) (b : Nat) : Bool := row.getLsbD (7 - b)

/-- The body of the inner loop of 44_display R113: the framebuffer and `collided` after one pixel. -/
def drawPixel (x0 y0 : Byte) (r : Nat) (row : Byte) (acc : Framebuffer × Bool) (b : Nat) : Framebuffer × Bool :=
  let s := spriteBit row b
  let old := Framebuffer.pixel acc.1 (spriteRow y0 r) (spriteCol x0 b)
  (Framebuffer.setPixel acc.1 (spriteRow y0 r) (spriteCol x0 b) (old ^^ s), acc.2 || (old && s))

/-- The inner loop of 44_display R113: `b` from 0 to 7. -/
def drawRow (x0 y0 : Byte) (r : Nat) (row : Byte) (acc : Framebuffer × Bool) : Framebuffer × Bool :=
  (List.range 8).foldl (drawPixel x0 y0 r row) acc

/-- The outer loop of 44_display R113, from sprite row `r` on. -/
def drawRows (x0 y0 : Byte) : Nat → List Byte → Framebuffer × Bool → Framebuffer × Bool
  | _, [], acc => acc
  | r, row :: rows, acc => drawRows x0 y0 (r + 1) rows (drawRow x0 y0 r row acc)

/-- `drawSprite(x0, y0, rows)`: the framebuffer after it and `collided` (44_display R113). -/
def drawSprite (fb : Framebuffer) (x0 y0 : Byte) (rows : List Byte) : Framebuffer × Bool :=
  drawRows x0 y0 0 rows (fb, false)

end Sys2Proof.Machine
end

