-- ==== Sys2Proof/Machine/ControlFlow.lean ====
section
/-!
DEFINITION. The control-flow instructions (40_control_flow R80 to R88).
-/

namespace Sys2Proof.Machine

/-- `CLS` (40_control_flow R80). -/
def execCls (s : State) : Result := .next (s.setFb Framebuffer.blank).advance

/-- `RET` (40_control_flow R81). -/
def execRet (s : State) : Result :=
  match s.pop with
  | some (a, t) => .next (t.setPc a)
  | none => raiseIn .ret Fault.stackUnderflow s

/-- `JP nnn` (40_control_flow R82). -/
def execJp (nnn : Addr) (s : State) : Result := .next (s.setPc nnn)

/-- `CALL nnn` (40_control_flow R83). -/
def execCall (nnn : Addr) (s : State) : Result :=
  match s.push s.next with
  | some t => .next (t.setPc nnn)
  | none => raiseIn (.call nnn) Fault.stackOverflow s

/-- `SE Vx, nn` (40_control_flow R84). -/
def execSeImm (x : Reg) (nn : Byte) (s : State) : Result := .next (s.skipIf (s.getV x == nn))

/-- `SNE Vx, nn` (40_control_flow R85). -/
def execSneImm (x : Reg) (nn : Byte) (s : State) : Result := .next (s.skipIf (s.getV x != nn))

/-- `SE Vx, Vy` (40_control_flow R86). -/
def execSeReg (x y : Reg) (s : State) : Result := .next (s.skipIf (s.getV x == s.getV y))

/-- `SNE Vx, Vy` (40_control_flow R87). -/
def execSneReg (x y : Reg) (s : State) : Result := .next (s.skipIf (s.getV x != s.getV y))

/-- `JP V0, nnn` (40_control_flow R88). -/
def execJpV0 (nnn : Addr) (s : State) : Result := .next (s.setPc (s.jumpV0Target nnn))

end Sys2Proof.Machine
end

