-- ==== Sys2Proof/Machine/Flags.lean ====
section
/-!
DEFINITION. The flag computations of 10_state R11 and 41_register_ops R90 and the common shape of an instruction with a
flag: the flag is computed from the exact result, stored in `VF`, and then the truncated result is stored.
-/

namespace Sys2Proof.Machine

/-- A flag as the register value 0 or 1 (10_state R11). -/
def flagByte (f : Bool) : Byte := if f then 1 else 0

/-- The carry out of bit 7 (41_register_ops R97). -/
def carryOut (t : Nat) : Bool := decide (t > 255)

/-- No borrow: the exact difference is not negative (41_register_ops R98, R100). -/
def noBorrow (t : Int) : Bool := decide (0 ≤ t)

/-- The bit a right shift drops (41_register_ops R99). -/
def bitOutRight (a : Byte) : Bool := a.getLsbD 0

/-- Bit 8 of the exact left shift (41_register_ops R101). -/
def bitOutLeft (t : Nat) : Bool := t.testBit 8

/-- Steps 4 and 5 of 41_register_ops R90: `V[15] <- f`, then `V[x] <- r`, then `pc <- NEXT`. -/
def State.storeFlagged (s : State) (x : Reg) (f : Bool) (r : Byte) : State :=
  ((s.setV vf (flagByte f)).setV x r).advance

end Sys2Proof.Machine
end

