-- ==== Sys2Proof/Machine/Devices.lean ====
section
/-!
DEFINITION. The random, display, input and timer instructions (43_random R109, 44_display R114, 45_input R118 to R120,
46_timers R124 to R126).
-/

namespace Sys2Proof.Machine

/-- `RND Vx, nn` (43_random R109), with the byte on the input `rand` of this step (R110). -/
def execRnd (x : Reg) (nn : Byte) (s : State) : Result := .next (s.setV x (s.env.rand &&& nn)).advance

/-- The block check of `DRW`: `n = 0` reads nothing (44_display R114). -/
def State.spriteFits (s : State) (n : Nat) : Bool := decide (n = 0) || s.blockFits (n - 1)

/-- `DRW Vx, Vy, n` (44_display R114): the check and all reads, then the pixels, then `VF`. -/
def execDrw (x y : Reg) (n : Nat) (s : State) : Result :=
  if s.spriteFits n then
    let d := drawSprite s.fb (s.getV x) (s.getV y) (s.bytesAtIndex n)
    .next ((s.setFb d.1).setV vf (flagByte d.2)).advance
  else raiseBlock (.drw x y n) s

/-- `SKP Vx` (45_input R118). -/
def execSkp (x : Reg) (s : State) : Result := .next (s.skipIf (s.keyDown (s.lowNibble x)))

/-- `SKNP Vx` (45_input R119). -/
def execSknp (x : Reg) (s : State) : Result := .next (s.skipIf (!s.keyDown (s.lowNibble x)))

/-- `LD Vx, K`: entry into the wait, `PC` not written (45_input R120). -/
def execLdVK (x : Reg) (s : State) : Result := .next ((s.setWaitX x).setMode .awaitingKey)

/-- `LD Vx, DT` (46_timers R124). -/
def execLdVDt (x : Reg) (s : State) : Result := .next (s.setV x s.dt).advance

/-- `LD DT, Vx` (46_timers R125). -/
def execLdDtV (x : Reg) (s : State) : Result := .next (s.setDelay (s.getV x)).advance

/-- `LD ST, Vx` (46_timers R126). -/
def execLdStV (x : Reg) (s : State) : Result := .next (s.setSound (s.getV x)).advance

end Sys2Proof.Machine
end

