-- ==== Sys2Proof/Machine/IndexMemory.lean ====
section
/-!
DEFINITION. The index-register and memory instructions (42_index_memory R102 to R107) under the block check of R108.
-/

namespace Sys2Proof.Machine

/-- `LD I, nnn` (42_index_memory R102). -/
def execLdI (nnn : Addr) (s : State) : Result := .next (s.setIndex nnn).advance

/-- `ADD I, Vx`, no flag (42_index_memory R103). -/
def execAddI (x : Reg) (s : State) : Result := .next (s.setIndex (s.indexPlus x)).advance

/-- `LD F, Vx` (42_index_memory R104). -/
def execLdF (x : Reg) (s : State) : Result := .next (s.setIndex (glyphAddr s.cfg (s.lowNibble x))).advance

/-- `LD B, Vx` (42_index_memory R105). -/
def execLdB (x : Reg) (s : State) : Result :=
  if s.blockFits 2 then .next (s.storeBytes (s.blockAddr 0) (decimalDigits (s.getV x))).advance
  else raiseBlock (.ldB x) s

/-- `LD [I], Vx` (42_index_memory R106). -/
def execLdMemV (x : Reg) (s : State) : Result :=
  if s.blockFits x.val then .next ((s.storeBytes (s.blockAddr 0) (s.regsUpTo x)).bumpIndex x).advance
  else raiseBlock (.ldMemV x) s

/-- `LD Vx, [I]` (42_index_memory R107). -/
def execLdVMem (x : Reg) (s : State) : Result :=
  if s.blockFits x.val then .next ((s.setRegs (s.regsLoaded x)).bumpIndex x).advance
  else raiseBlock (.ldVMem x) s

end Sys2Proof.Machine
end

