-- ==== Sys2Proof/Machine/RegisterOps.lean ====
section
/-!
DEFINITION. The register operations (41_register_ops R91 to R101) under the flag law of R90.
-/

namespace Sys2Proof.Machine

/-- `LD Vx, nn` (41_register_ops R91). -/
def execLdImm (x : Reg) (nn : Byte) (s : State) : Result := .next (s.setV x nn).advance

/-- `ADD Vx, nn`, no flag (41_register_ops R92). -/
def execAddImm (x : Reg) (nn : Byte) (s : State) : Result :=
  .next (s.setV x (trunc8 (exactSum (s.getV x) nn))).advance

/-- `LD Vx, Vy` (41_register_ops R93). -/
def execLdReg (x y : Reg) (s : State) : Result := .next (s.setV x (s.getV y)).advance

/-- `OR Vx, Vy`, no flag (41_register_ops R94). -/
def execOrReg (x y : Reg) (s : State) : Result := .next (s.setV x (s.getV x ||| s.getV y)).advance

/-- `AND Vx, Vy`, no flag (41_register_ops R95). -/
def execAndReg (x y : Reg) (s : State) : Result := .next (s.setV x (s.getV x &&& s.getV y)).advance

/-- `XOR Vx, Vy`, no flag (41_register_ops R96). -/
def execXorReg (x y : Reg) (s : State) : Result := .next (s.setV x (s.getV x ^^^ s.getV y)).advance

/-- `ADD Vx, Vy` (41_register_ops R97). -/
def execAddReg (x y : Reg) (s : State) : Result :=
  let t := exactSum (s.getV x) (s.getV y)
  .next (s.storeFlagged x (carryOut t) (trunc8 t))

/-- `SUB Vx, Vy` (41_register_ops R98). -/
def execSubReg (x y : Reg) (s : State) : Result :=
  let t := exactDiff (s.getV x) (s.getV y)
  .next (s.storeFlagged x (noBorrow t) (truncDiff t))

/-- `SHR Vx, Vy` (41_register_ops R99). -/
def execShr (x y : Reg) (s : State) : Result :=
  let a := s.shiftOperand x y
  .next (s.storeFlagged x (bitOutRight a) (shiftRight1 a))

/-- `SUBN Vx, Vy` (41_register_ops R100). -/
def execSubn (x y : Reg) (s : State) : Result :=
  let t := exactDiff (s.getV y) (s.getV x)
  .next (s.storeFlagged x (noBorrow t) (truncDiff t))

/-- `SHL Vx, Vy` (41_register_ops R101). -/
def execShl (x y : Reg) (s : State) : Result :=
  let t := exactShl (s.shiftOperand x y)
  .next (s.storeFlagged x (bitOutLeft t) (trunc8 t))

end Sys2Proof.Machine
end

