-- ==== Sys2Proof/Machine/Cycle.lean ====
section
/-!
DEFINITION. The host operations of 00_scope R3: the step cycle (30_encoding R60), `reset` (70_reset R160),
`loadProgram` (20_memory R47), `tickTimers` (60_exceptions R145), `setKey` (45_input R121, R122), the observers `isSet`
(44_display R116) and `isSoundActive` (46_timers R127), and the choice of the operation that comes next.
-/

namespace Sys2Proof.Machine

/-- The part of `step` after the fetch: decode, and execute or report (30_encoding R60, R68). -/
def State.runWord (s : State) (w : InstrWord) : Result :=
  match decode w with
  | .ok i => exec i s
  | .error _ => raiseUnknown w s

/-- `step(rand)` with `rand` already in `env.rand` (30_encoding R60). -/
def State.coreStep (s : State) : Result :=
  match s.mode with
  | .awaitingKey => .next s
  | .running =>
    match s.fetch with
    | some w => s.runWord w
    | none => raiseFetch s

/-- A counter one lower, or still 0 (60_exceptions R145). -/
def countDown (b : Byte) : Byte := if b = 0 then 0 else b - 1

/-- `tickTimers()` (60_exceptions R145). -/
def State.tickTimers (s : State) : State := (s.setDelay (countDown s.dt)).setSound (countDown s.st)

/-- `complete_wait(k)` (45_input R122). -/
def State.completeWait (s : State) (k : Key) : State :=
  ((s.setV s.waitX (BitVec.ofNat 8 k.val)).advance).setMode .running

/-- `setKey(k, pressed)` (45_input R121). -/
def State.setKey (s : State) (k : Key) (pressed : Bool) : State :=
  let t := s.setKeyFlag k pressed
  if s.mode = .awaitingKey ∧ pressed = true ∧ s.keyDown k = false then t.completeWait k else t

/-- `loadProgram(bytes)` (20_memory R47), refused outside the host's contract (70_reset R165, decision D26). -/
def State.loadProgram (s : State) (bytes : List Byte) : Result :=
  if s.env.loadOpen then
    if bytes.length ≤ memorySize - loadAddress then
      .next ((s.storeBytes loadAddress bytes).setEnv { s.env with loadOpen := false })
    else .fault .programTooLarge
  else .refused .loadOutOfContract

/-- `isSet(col, row)` (44_display R116). -/
def State.isSet (s : State) (col : Fin 64) (row : Fin 32) : Bool := Framebuffer.pixel s.fb row col

/-- `isSoundActive()` (46_timers R127). -/
def State.isSoundActive (s : State) : Bool := decide (s.st.toNat > 0)

/-- The host's side as an operation begins: a `step` supplies `rand` and closes the load (43_random R110, 70_reset R165). -/
def State.beginOp (s : State) : HostOp → State
  | .step rand => s.setEnv { s.env with rand := rand, loadOpen := false }
  | .reset => s
  | .loadProgram _ => s
  | .tickTimers => s
  | .setKey _ _ => s

/-- One host operation (00_scope R2, R3). `reset` keeps the parameters (10_state R20) and the host's script, and opens the
load again; a `step` closes it. -/
def State.perform (s : State) : HostOp → Result
  | .reset => .next (State.resetWith s.cfg { s.env with loadOpen := true })
  | .loadProgram bytes => s.loadProgram bytes
  | .step rand => (s.beginOp (.step rand)).coreStep
  | .tickTimers => .next s.tickTimers
  | .setKey k pressed => .next (s.setKey k pressed)

/-- The operation the host issues next, and the state with it taken: the first of the script, or, when none is
scripted, a `step` whose `rand` is a fresh free value. DESIGN CHOICE, safe: log entries 2 and 3. -/
def State.nextOp (s : State) : HostOp × State :=
  match s.env.script with
  | op :: rest => (op, s.setEnv { s.env with script := rest })
  | [] => (.step (Config.freeRand s.env.draws), s.setEnv { s.env with draws := s.env.draws + 1 })

/-- The state after the operation that comes next has returned an error (60_exceptions R133). -/
def State.afterStepFault (s : State) (f : Fault) : State := (s.nextOp.2.beginOp s.nextOp.1).afterFault f

/-- Make the next step fetch: `PC` where a word fits, mode `RUNNING`, nothing scripted before the step. -/
def State.readyToFetch (s : State) : State :=
  ((if s.pc = 0xFFF then s.setPc 0x200 else s).setMode .running).setEnv { s.env with script := [] }

end Sys2Proof.Machine
end

