-- ==== Sys2Proof/Machine/Step.lean ====
section
/-!
DEFINITION. One step of the model: the host's next operation (00_scope R2), and a word placed where the next step
fetches.
-/

namespace Sys2Proof.Machine

/-- The host's next operation, performed: the next of `env.script`, or a `step` of the core when none is scripted. -/
def step (s : State) : Host.Outcome State Fault Refusal := s.nextOp.2.perform s.nextOp.1

/-- `s` with a table word stored at `PC`, so that the very next step fetches and runs it. It stands for the host's
`loadProgram` (log entry 9). -/
def State.withFetchWord (s : State) (nbits w : Nat) : State :=
  s.readyToFetch.storeBytes s.readyToFetch.pc.toNat (tableWordBytes nbits w)

end Sys2Proof.Machine
end

