-- ==== Sys2Proof/Machine/Assembler.lean ====
section
/-!
DEFINITION. The assembler syntax of 30_encoding R69 (decision D28): the operands a line may name, which instruction a line
selects, the bytes it stands for, and its text. A line is data, not characters: log entry 16.
-/

namespace Sys2Proof

/-- The first word of a line: a mnemonic of 30_encoding R66, or `DB` (R69). -/
inductive AsmName where
  | cls | ret | jp | call | se | sne | ld | add | or | and | xor | sub | shr | subn | shl | rnd | drw | skp | sknp | db
deriving DecidableEq, Repr

/-- An operand of a line: a register `V0`..`VF`, a number, or one of the literal names of 30_encoding R69. -/
inductive AsmOperand where
  | reg (x : Reg)
  | num (n : Nat)
  /-- `I`, the index register. -/
  | index
  /-- `DT`, the delay timer. -/
  | delay
  /-- `ST`, the sound timer. -/
  | sound
  /-- `K`, a key. -/
  | key
  /-- `F`, the font. -/
  | font
  /-- `B`, decimal digits. -/
  | digits
  /-- `[I]`, memory at `I`. -/
  | memIndex
deriving DecidableEq, Repr

/-- What a line of a listing stands for: an instruction, or the data byte of `DB value` (30_encoding R69). -/
inductive AsmItem where
  | instr (i : Instr)
  | data (b : Byte)
deriving DecidableEq, Repr

/-- The bytes of a line, in the order of their addresses (20_memory R43). -/
def AsmItem.bytes : AsmItem → List Byte
  | .instr i => [highByte (encode i), lowByte (encode i)]
  | .data b => [b]

/-- A number as the field of `w` bits it is written for, if it fits (30_encoding R64, log entry 16). -/
def asmField (w n : Nat) : Option (BitVec w) := if n < 2 ^ w then some (BitVec.ofNat w n) else none

/-- `JP` and `CALL` with an address, and `JP V0, nnn` (30_encoding R69). -/
def assembleJp : List AsmOperand → Option Instr
  | [.num n] => (asmField 12 n).map .jp
  | [.reg x, .num n] => if x = 0 then (asmField 12 n).map .jpV0 else none
  | _ => none

/-- The forms of `SE` and `SNE` (30_encoding R69). -/
def assembleSkip (imm : Reg → Byte → Instr) (reg : Reg → Reg → Instr) : List AsmOperand → Option Instr
  | [.reg x, .num n] => (asmField 8 n).map (imm x)
  | [.reg x, .reg y] => some (reg x y)
  | _ => none

/-- The forms of `LD`, which its literal operands tell apart (30_encoding R69). -/
def assembleLd : List AsmOperand → Option Instr
  | [.reg x, .num n] => (asmField 8 n).map (.ldImm x)
  | [.reg x, .reg y] => some (.ldReg x y)
  | [.index, .num n] => (asmField 12 n).map .ldI
  | [.font, .reg x] => some (.ldF x)
  | [.digits, .reg x] => some (.ldB x)
  | [.memIndex, .reg x] => some (.ldMemV x)
  | [.reg x, .memIndex] => some (.ldVMem x)
  | [.reg x, .key] => some (.ldVK x)
  | [.reg x, .delay] => some (.ldVDt x)
  | [.delay, .reg x] => some (.ldDtV x)
  | [.sound, .reg x] => some (.ldStV x)
  | _ => none

/-- The forms of `ADD` (30_encoding R69). -/
def assembleAdd : List AsmOperand → Option Instr
  | [.reg x, .num n] => (asmField 8 n).map (.addImm x)
  | [.reg x, .reg y] => some (.addReg x y)
  | [.index, .reg x] => some (.addI x)
  | _ => none

/-- `SHR Vx` written without `Vy` encodes `y = 0` (30_encoding R69, decision D28). -/
abbrev Instr.shrShort (x : Reg) : Instr := .shr x 0

/-- `SHL Vx` written without `Vy` encodes `y = 0` (30_encoding R69, decision D28). -/
abbrev Instr.shlShort (x : Reg) : Instr := .shl x 0

/-- `SHR` and `SHL`, with `Vy` or without (30_encoding R69). -/
def assembleShift (short : Reg → Instr) (full : Reg → Reg → Instr) : List AsmOperand → Option Instr
  | [.reg x] => some (short x)
  | [.reg x, .reg y] => some (full x y)
  | _ => none

/-- The instructions with no operand. -/
def assembleBare (i : Instr) : List AsmOperand → Option Instr
  | [] => some i
  | _ => none

/-- The instructions with one register operand. -/
def assembleX (f : Reg → Instr) : List AsmOperand → Option Instr
  | [.reg x] => some (f x)
  | _ => none

/-- The instructions with two register operands. -/
def assembleXY (f : Reg → Reg → Instr) : List AsmOperand → Option Instr
  | [.reg x, .reg y] => some (f x y)
  | _ => none

/-- `CALL nnn`. -/
def assembleCall : List AsmOperand → Option Instr
  | [.num n] => (asmField 12 n).map .call
  | _ => none

/-- `RND Vx, nn`. -/
def assembleRnd : List AsmOperand → Option Instr
  | [.reg x, .num n] => (asmField 8 n).map (.rnd x)
  | _ => none

/-- `DRW Vx, Vy, n`. -/
def assembleDrw : List AsmOperand → Option Instr
  | [.reg x, .reg y, .num n] => if n < 16 then some (.drw x y n) else none
  | _ => none

/-- The instruction a line selects; none where no row of 30_encoding R66 is written so (R69). -/
def assembleInstr : AsmName → List AsmOperand → Option Instr
  | .cls => assembleBare .cls
  | .ret => assembleBare .ret
  | .jp => assembleJp
  | .call => assembleCall
  | .se => assembleSkip .seImm .seReg
  | .sne => assembleSkip .sneImm .sneReg
  | .ld => assembleLd
  | .add => assembleAdd
  | .or => assembleXY .orReg
  | .and => assembleXY .andReg
  | .xor => assembleXY .xorReg
  | .sub => assembleXY .subReg
  | .shr => assembleShift .shrShort .shr
  | .subn => assembleXY .subn
  | .shl => assembleShift .shlShort .shl
  | .rnd => assembleRnd
  | .drw => assembleDrw
  | .skp => assembleX .skp
  | .sknp => assembleX .sknp
  | .db => fun _ => none

/-- A line of a listing: an instruction, or `DB value` (30_encoding R69). -/
def assemble : AsmName → List AsmOperand → Option AsmItem
  | .db, [.num n] => (asmField 8 n).map .data
  | name, ops => (assembleInstr name ops).map .instr

/-- The first word of an instruction's line (30_encoding R66, R69). -/
def Instr.asmName : Instr → AsmName
  | .cls => .cls
  | .ret => .ret
  | .jp _ => .jp
  | .call _ => .call
  | .seImm _ _ => .se
  | .sneImm _ _ => .sne
  | .seReg _ _ => .se
  | .sneReg _ _ => .sne
  | .jpV0 _ => .jp
  | .ldImm _ _ => .ld
  | .addImm _ _ => .add
  | .ldReg _ _ => .ld
  | .orReg _ _ => .or
  | .andReg _ _ => .and
  | .xorReg _ _ => .xor
  | .addReg _ _ => .add
  | .subReg _ _ => .sub
  | .shr _ _ => .shr
  | .subn _ _ => .subn
  | .shl _ _ => .shl
  | .ldI _ => .ld
  | .addI _ => .add
  | .ldF _ => .ld
  | .ldB _ => .ld
  | .ldMemV _ => .ld
  | .ldVMem _ => .ld
  | .rnd _ _ => .rnd
  | .drw _ _ _ => .drw
  | .skp _ => .skp
  | .sknp _ => .sknp
  | .ldVK _ => .ld
  | .ldVDt _ => .ld
  | .ldDtV _ => .ld
  | .ldStV _ => .ld

/-- The operands of an instruction's line, `Vy` of a shift written out (30_encoding R66, R69). -/
def Instr.asmOperands : Instr → List AsmOperand
  | .cls => []
  | .ret => []
  | .jp nnn => [.num nnn.toNat]
  | .call nnn => [.num nnn.toNat]
  | .seImm x nn => [.reg x, .num nn.toNat]
  | .sneImm x nn => [.reg x, .num nn.toNat]
  | .seReg x y => [.reg x, .reg y]
  | .sneReg x y => [.reg x, .reg y]
  | .jpV0 nnn => [.reg 0, .num nnn.toNat]
  | .ldImm x nn => [.reg x, .num nn.toNat]
  | .addImm x nn => [.reg x, .num nn.toNat]
  | .ldReg x y => [.reg x, .reg y]
  | .orReg x y => [.reg x, .reg y]
  | .andReg x y => [.reg x, .reg y]
  | .xorReg x y => [.reg x, .reg y]
  | .addReg x y => [.reg x, .reg y]
  | .subReg x y => [.reg x, .reg y]
  | .shr x y => [.reg x, .reg y]
  | .subn x y => [.reg x, .reg y]
  | .shl x y => [.reg x, .reg y]
  | .ldI nnn => [.index, .num nnn.toNat]
  | .addI x => [.index, .reg x]
  | .ldF x => [.font, .reg x]
  | .ldB x => [.digits, .reg x]
  | .ldMemV x => [.memIndex, .reg x]
  | .ldVMem x => [.reg x, .memIndex]
  | .rnd x nn => [.reg x, .num nn.toNat]
  | .drw x y n => [.reg x, .reg y, .num n]
  | .skp x => [.reg x]
  | .sknp x => [.reg x]
  | .ldVK x => [.reg x, .key]
  | .ldVDt x => [.reg x, .delay]
  | .ldDtV x => [.delay, .reg x]
  | .ldStV x => [.sound, .reg x]

/-- One hexadecimal digit, as 30_encoding R69 writes register names. -/
def hexDigit (n : Nat) : Char :=
  if n < 10 then Char.ofNat (48 + n) else Char.ofNat (55 + n)

/-- `V0`..`VF` (30_encoding R69). -/
def regName (x : Reg) : String := "V" ++ String.ofList [hexDigit x.val]

/-- A mnemonic as it is written (30_encoding R66, R69). -/
def AsmName.text : AsmName → String
  | .cls => "CLS"
  | .ret => "RET"
  | .jp => "JP"
  | .call => "CALL"
  | .se => "SE"
  | .sne => "SNE"
  | .ld => "LD"
  | .add => "ADD"
  | .or => "OR"
  | .and => "AND"
  | .xor => "XOR"
  | .sub => "SUB"
  | .shr => "SHR"
  | .subn => "SUBN"
  | .shl => "SHL"
  | .rnd => "RND"
  | .drw => "DRW"
  | .skp => "SKP"
  | .sknp => "SKNP"
  | .db => "DB"

/-- An operand as it is written, a number in decimal (30_encoding R69, 00_scope section 5). -/
def AsmOperand.text : AsmOperand → String
  | .reg x => regName x
  | .num n => toString n
  | .index => "I"
  | .delay => "DT"
  | .sound => "ST"
  | .key => "K"
  | .font => "F"
  | .digits => "B"
  | .memIndex => "[I]"

/-- A line as it is written: `MNEMONIC operand, operand, ...` (30_encoding R69). -/
def asmText (name : AsmName) : List AsmOperand → String
  | [] => name.text
  | op :: ops => ops.foldl (fun t o => t ++ ", " ++ o.text) (name.text ++ " " ++ op.text)

/-- An instruction as an assembler line (30_encoding R69). -/
def Instr.asm (i : Instr) : String := asmText i.asmName i.asmOperands

end Sys2Proof
end

