-- ==== Sys2Proof/Safety.lean ====
section
/-!
DEFINITION. The terms claims are written in: what an operation leaves as it was, the invariant of the machine, the
states a run reaches, a run without a fault, and the end of a program (70_reset R169).
-/

namespace Sys2Proof.Machine

/-- The parts of the state a frame speaks of; `PC` is said apart, since every instruction may change it. -/
inductive Part where
  | regs
  | index
  | stack
  | delay
  | sound
  | display
  | keys
  | memory
  | wait
  | setup
deriving DecidableEq, Repr

/-- A part of the state reads after as it read before. `wait` is `MODE` and `WAITX`; `setup` is the parameters and the
host's side. -/
def Part.Same (s t : State) : Part → Prop
  | .regs => ∀ r, t.getV r = s.getV r
  | .index => t.index = s.index
  | .stack => t.sp = s.sp ∧ ∀ j, t.slot j = s.slot j
  | .delay => t.dt = s.dt
  | .sound => t.st = s.st
  | .display => ∀ row col, Framebuffer.pixel t.fb row col = Framebuffer.pixel s.fb row col
  | .keys => ∀ k, t.keyDown k = s.keyDown k
  | .memory => ∀ a, t.byteAt a = s.byteAt a
  | .wait => t.mode = s.mode ∧ t.waitX = s.waitX
  | .setup => t.cfg = s.cfg ∧ t.env = s.env

/-- Every part outside a list is as before. -/
def OnlyChanges (ps : List Part) (s t : State) : Prop := ∀ p, p ∉ ps → p.Same s t

/-- The parts an instruction may change when it gives a next state; `PC` apart (10_state R10 to R18, 20_memory R40). -/
def mayChange : Instr → List Part
  | .cls => [.display]
  | .ret => [.stack]
  | .jp _ => []
  | .call _ => [.stack]
  | .seImm _ _ => []
  | .sneImm _ _ => []
  | .seReg _ _ => []
  | .sneReg _ _ => []
  | .jpV0 _ => []
  | .ldImm _ _ => [.regs]
  | .addImm _ _ => [.regs]
  | .ldReg _ _ => [.regs]
  | .orReg _ _ => [.regs]
  | .andReg _ _ => [.regs]
  | .xorReg _ _ => [.regs]
  | .addReg _ _ => [.regs]
  | .subReg _ _ => [.regs]
  | .shr _ _ => [.regs]
  | .subn _ _ => [.regs]
  | .shl _ _ => [.regs]
  | .ldI _ => [.index]
  | .addI _ => [.index]
  | .ldF _ => [.index]
  | .ldB _ => [.memory]
  | .ldMemV _ => [.memory, .index]
  | .ldVMem _ => [.regs, .index]
  | .rnd _ _ => [.regs]
  | .drw _ _ _ => [.regs, .display]
  | .skp _ => []
  | .sknp _ => []
  | .ldVK _ => [.wait]
  | .ldVDt _ => [.regs]
  | .ldDtV _ => [.delay]
  | .ldStV _ => [.sound]

/-- The values of 70_reset R160, read through the state's observers. -/
structure AtReset (t : State) : Prop where
  font : ∀ j : Fin 80, t.byteAt (t.cfg.fontBase.val + j.val) = t.cfg.font.get j
  zeroElsewhere : ∀ a, a ≤ 0xFFF → (∀ j : Fin 80, a ≠ t.cfg.fontBase.val + j.val) → t.byteAt a = 0
  regs : ∀ r, t.getV r = 0
  index : t.index = 0
  pc : t.pc = 0x200
  sp : t.sp = 0
  slots : ∀ j, t.slot j = 0
  delay : t.dt = 0
  sound : t.st = 0
  pixels : ∀ row col, Framebuffer.pixel t.fb row col = false
  keys : ∀ k, t.keyDown k = false
  mode : t.mode = .running
  waitX : t.waitX = 0

/-- The word spelled by the two bytes at `PC` and `PC + 1` (30_encoding R61). -/
def wordAtPc (s : State) : InstrWord := s.byteAt s.pc.toNat ++ s.byteAt (s.pc.toNat + 1)

/-- The rows of the table of 60_exceptions R132 that name an instruction: the condition on which it raises, and its error,
given the word it was decoded from. -/
def InstrRaises (i : Instr) (w : InstrWord) (s : State) (f : Fault) : Prop :=
  (i = .ret ∧ s.sp = 0 ∧ f = .stackUnderflow ⟨some w, s.pc, none⟩) ∨
  ((∃ nnn, i = .call nnn) ∧ s.sp = 16 ∧ f = .stackOverflow ⟨some w, s.pc, none⟩) ∨
  (((∃ x y n, i = .drw x y n ∧ 1 ≤ n ∧ 0xFFF < s.index.toNat + n - 1) ∨
    (∃ x, i = .ldB x ∧ 0xFFE ≤ s.index.toNat) ∨
    (∃ x, i = .ldMemV x ∧ 0xFFF < s.index.toNat + x.val) ∨
    (∃ x, i = .ldVMem x ∧ 0xFFF < s.index.toNat + x.val)) ∧
   f = .addressOutOfRange ⟨some w, s.pc, some 0x1000⟩)

/-- The table of 60_exceptions R132 in the order of R134: fetch, decode, the decoded instruction. -/
def StepRaises (s : State) (f : Fault) : Prop :=
  (s.pc = 0xFFF#12 ∧ f = .addressOutOfRange ⟨none, s.pc, some 0x1000⟩) ∨
  (s.pc ≠ 0xFFF#12 ∧ (∃ e, decode (wordAtPc s) = .error e) ∧ f = .unknownOpcode ⟨some (wordAtPc s), s.pc, none⟩) ∨
  (s.pc ≠ 0xFFF#12 ∧ ∃ i, decode (wordAtPc s) = .ok i ∧ InstrRaises i (wordAtPc s) s f)

/-- The operations that go on with a program: a step, a tick, a key event. -/
def HostOp.goesOn : HostOp → Bool
  | .step _ => true
  | .tickTimers => true
  | .setKey _ _ => true
  | .reset => false
  | .loadProgram _ => false

/-- While the core waits, the word at `PC` is the `Fx0A` whose `x` is in `WAITX`, and the load is closed (10_state R18,
45_input R120). -/
def State.WaitCoherent (s : State) : Prop :=
  s.mode = .awaitingKey →
    s.env.loadOpen = false ∧ ∃ w, s.fetch = some w ∧ decode w = .ok (.ldVK s.waitX)

/-- The invariant of the machine: memory in its canonical form, and a coherent wait. -/
def State.Inv (s : State) : Prop := Memory.wf s.cfg s.mem = true ∧ s.WaitCoherent

/-- The states some number of steps leads to. -/
inductive Reaches : State → State → Prop where
  | here (s : State) : Reaches s s
  | step {s t u : State} (h : Reaches s t) (hs : Sys2Proof.Machine.step t = .next u) : Reaches s u

/-- No step of a run from `s` ends in an error or a refusal (70_reset R169 (a)). -/
def State.RunsSafely (s : State) : Prop := ∀ t, Reaches s t → ∃ u, Sys2Proof.Machine.step t = .next u

/-- The conventional end of a program: the core runs, and the word at `PC` jumps to itself (70_reset R169 (b)). -/
def State.Completed (s : State) : Prop :=
  s.mode = .running ∧ ∃ w, s.fetch = some w ∧ decode w = .ok (.jp s.pc)

end Sys2Proof.Machine
end

