-- ==== Sys2Proof/Certificates/Slice0/Obligations.lean ====
section
/-!
DEFINITION. The statements about the model, each a proposition for the provers. Titles, tiers and the rules they rest on are in
OBLIGATIONS.json. A rule that itself rests on a decision of 92_eei_decisions is formalised as it stands.
-/

open Sys2Proof Sys2Proof.Machine

/-! ### Encoding -/

/-- 30_encoding R62, R66: no operand bit of an encoding is dropped. -/
def Obligations.DecodeOfEncode : Prop :=
  ∀ i : Instr, i.WellFormed = true → decode (encode i) = .ok i

/-- 30_encoding R65: decoding is strict, so the only word that decodes to an instruction is its encoding. -/
def Obligations.EncodeOfDecode : Prop :=
  ∀ (w : InstrWord) (i : Instr), decode w = .ok i → i.WellFormed = true ∧ encode i = w

/-- 30_encoding R65: a word decodes to the row it matches and to nothing where it matches none; that it matches at most
one is what R65 marks as derived from the table. -/
def Obligations.DecodeFollowsOpcodeTable : Prop :=
  (∀ (w : InstrWord) (r : OpcodeRow), r ∈ opcodeTable →
    (r.matchesWord w = true ↔ ∃ i, decode w = .ok i ∧ i.mnemonic = r.mnemonic)) ∧
  (∀ w : InstrWord, (∀ r ∈ opcodeTable, r.matchesWord w = false) → decode w = .error (.unknownOpcode w)) ∧
  (∀ (w : InstrWord) (r r' : OpcodeRow), r ∈ opcodeTable → r' ∈ opcodeTable →
    r.matchesWord w = true → r'.matchesWord w = true → r = r')

/-- 30_encoding section 5, the table of unknown words by class, in terms of the word as a number. -/
def Obligations.UnknownWordsByClass : Prop :=
  ∀ w : InstrWord, decode w = .error (.unknownOpcode w) ↔
    (w.toNat / 4096 = 0x0 ∧ w.toNat ≠ 0x00E0 ∧ w.toNat ≠ 0x00EE) ∨
    (w.toNat / 4096 = 0x5 ∧ w.toNat % 16 ≠ 0) ∨
    (w.toNat / 4096 = 0x8 ∧ 8 ≤ w.toNat % 16 ∧ w.toNat % 16 ≠ 0xE) ∨
    (w.toNat / 4096 = 0x9 ∧ w.toNat % 16 ≠ 0) ∨
    (w.toNat / 4096 = 0xE ∧ w.toNat % 256 ≠ 0x9E ∧ w.toNat % 256 ≠ 0xA1) ∨
    (w.toNat / 4096 = 0xF ∧
      w.toNat % 256 ∉ [0x07, 0x0A, 0x15, 0x18, 0x1E, 0x29, 0x33, 0x55, 0x65])

/-- Words written out from the patterns of 30_encoding R66 and the example words of its preamble. -/
def Obligations.SampleWordsDecode : Prop :=
  decode 0xA22A#16 = .ok (.ldI 0x22A#12) ∧ decode 0x6100#16 = .ok (.ldImm 1 0x00#8) ∧
  decode 0xD015#16 = .ok (.drw 0 1 5) ∧ decode 0x1206#16 = .ok (.jp 0x206#12) ∧
  decode 0x00EE#16 = .ok .ret ∧ decode 0x8F14#16 = .ok (.addReg 15 1) ∧
  decode 0xC30F#16 = .ok (.rnd 3 0x0F#8) ∧ decode 0xE19E#16 = .ok (.skp 1) ∧
  decode 0xF218#16 = .ok (.ldStV 2) ∧ decode 0x0000#16 = .error (.unknownOpcode 0x0000#16)

/-! ### The step cycle -/

/-- When the core runs and the bytes at `PC` decode to an instruction, the step is that instruction's meaning at the state
with the host's side moved on: the operation taken, `rand` supplied, the load closed (30_encoding R60, log entries 2, 3
and 8). -/
def Obligations.StepRunsDecodedInstruction : Prop :=
  (∀ (s : State) (rand : Byte) (rest : List HostOp) (i : Instr),
    s.env.script = .step rand :: rest → s.mode = .running → s.pc ≠ 0xFFF#12 → decode (wordAtPc s) = .ok i →
    step s = exec i (s.setEnv ⟨rest, rand, s.env.draws, false⟩)) ∧
  (∀ (s : State) (i : Instr),
    s.env.script = [] → s.mode = .running → s.pc ≠ 0xFFF#12 → decode (wordAtPc s) = .ok i →
    step s = exec i (s.setEnv ⟨[], Config.freeRand s.env.draws, s.env.draws + 1, false⟩))

/-- 30_encoding R61. -/
def Obligations.FetchIsTwoBytesBigEndian : Prop :=
  (∀ s : State, s.pc ≠ 0xFFF#12 → s.fetch = some (s.byteAt s.pc.toNat ++ s.byteAt (s.pc.toNat + 1))) ∧
  (∀ s : State, s.pc = 0xFFF#12 → s.fetch = none ∧
    (s.mode = .running → s.coreStep = .fault (.addressOutOfRange ⟨none, 0xFFF#12, some 0x1000⟩)))

/-- An unknown opcode reports its word and `PC`, and moves `PC` on under `SKIP` alone (30_encoding R68). -/
def Obligations.UnknownOpcodeReported : Prop :=
  ∀ s : State, s.mode = .running → s.pc ≠ 0xFFF#12 → (∀ i, decode (wordAtPc s) ≠ .ok i) →
    ∃ f, f = Fault.unknownOpcode ⟨some (wordAtPc s), s.pc, none⟩ ∧ s.coreStep = .fault f ∧
      (s.cfg.unknownOpcodePolicy = .halt → s.afterFault f = s) ∧
      (s.cfg.unknownOpcodePolicy = .skip → OnlyChanges [] s (s.afterFault f) ∧ (s.afterFault f).pc = s.pc + 2#12)

/-- While the core waits for a key, a step answers `Ok` and changes nothing, and a tick counts as always (45_input R123). -/
def Obligations.WaitingStepChangesNothing : Prop :=
  ∀ s : State, s.mode = .awaitingKey →
    s.coreStep = .next s ∧
    (∀ (rand : Byte) (rest : List HostOp), s.env.script = .step rand :: rest →
      ∃ t, step s = .next t ∧ OnlyChanges [.setup] s t ∧ t.pc = s.pc ∧ t.cfg = s.cfg ∧ t.env.script = rest) ∧
    (∀ rest : List HostOp, s.env.script = .tickTimers :: rest →
      ∃ t, step s = .next t ∧ t.mode = .awaitingKey ∧ t.dt.toNat = s.dt.toNat - 1 ∧ t.st.toNat = s.st.toNat - 1)

/-! ### Control flow -/

/-- 40_control_flow R80. -/
def Obligations.ClsClearsTheScreen : Prop :=
  encode .cls = 0x00E0#16 ∧
  ∀ s : State, ∃ t, exec .cls s = .next t ∧
    (∀ row col, Framebuffer.pixel t.fb row col = false) ∧ t.pc = s.pc + 2#12 ∧ OnlyChanges [.display] s t

/-- 40_control_flow R81. -/
def Obligations.RetPopsOrUnderflows : Prop :=
  encode .ret = 0x00EE#16 ∧
  ∀ s : State,
    (s.sp = 0 → exec .ret s = .fault (.stackUnderflow ⟨some 0x00EE#16, s.pc, none⟩)) ∧
    (∀ j : Fin 16, s.sp.val = j.val + 1 → ∃ t, exec .ret s = .next t ∧
      t.sp.val = j.val ∧ t.pc = s.slot j ∧ (∀ k, t.slot k = s.slot k) ∧ OnlyChanges [.stack] s t) ∧
    (∀ f, exec .ret s = .fault f → s.afterFault f = s)

/-- 40_control_flow R82. -/
def Obligations.JpSetsPc : Prop :=
  ∀ (nnn : Addr) (s : State), encode (.jp nnn) = 0x1#4 ++ nnn ∧
    ∃ t, exec (.jp nnn) s = .next t ∧ t.pc = nnn ∧ OnlyChanges [] s t

/-- 40_control_flow R83. -/
def Obligations.CallPushesOrOverflows : Prop :=
  ∀ (nnn : Addr) (s : State), encode (.call nnn) = 0x2#4 ++ nnn ∧
    (s.sp = 16 → exec (.call nnn) s = .fault (.stackOverflow ⟨some (0x2#4 ++ nnn), s.pc, none⟩)) ∧
    (∀ j : Fin 16, s.sp.val = j.val → ∃ t, exec (.call nnn) s = .next t ∧
      t.slot j = s.pc + 2#12 ∧ (∀ k, k ≠ j → t.slot k = s.slot k) ∧ t.sp.val = j.val + 1 ∧ t.pc = nnn ∧
      OnlyChanges [.stack] s t) ∧
    (∀ f, exec (.call nnn) s = .fault f → s.afterFault f = s)

/-- 40_control_flow R84, R85. -/
def Obligations.SkipsOnImmediate : Prop :=
  ∀ (x : Reg) (nn : Byte) (s : State),
    encode (.seImm x nn) = wordXB 0x3#4 x nn ∧ encode (.sneImm x nn) = wordXB 0x4#4 x nn ∧
    (∃ t, exec (.seImm x nn) s = .next t ∧
      t.pc = (if s.getV x = nn then s.pc + 4#12 else s.pc + 2#12) ∧ OnlyChanges [] s t) ∧
    (∃ t, exec (.sneImm x nn) s = .next t ∧
      t.pc = (if s.getV x = nn then s.pc + 2#12 else s.pc + 4#12) ∧ OnlyChanges [] s t)

/-- 40_control_flow R86, R87. -/
def Obligations.SkipsOnRegisters : Prop :=
  ∀ (x y : Reg) (s : State),
    encode (.seReg x y) = wordXYN 0x5#4 x y 0x0#4 ∧ encode (.sneReg x y) = wordXYN 0x9#4 x y 0x0#4 ∧
    (∃ t, exec (.seReg x y) s = .next t ∧
      t.pc = (if s.getV x = s.getV y then s.pc + 4#12 else s.pc + 2#12) ∧ OnlyChanges [] s t) ∧
    (∃ t, exec (.sneReg x y) s = .next t ∧
      t.pc = (if s.getV x = s.getV y then s.pc + 2#12 else s.pc + 4#12) ∧ OnlyChanges [] s t)

/-- 40_control_flow R88. -/
def Obligations.JpV0AddsV0 : Prop :=
  ∀ (nnn : Addr) (s : State), encode (.jpV0 nnn) = 0xB#4 ++ nnn ∧
    ∃ t, exec (.jpV0 nnn) s = .next t ∧
      t.pc.toNat = (nnn.toNat + (s.getV 0).toNat) % 4096 ∧ OnlyChanges [] s t

/-! ### Register operations -/

/-- 41_register_ops R91, R93. -/
def Obligations.LoadsIntoRegister : Prop :=
  (∀ (x : Reg) (nn : Byte) (s : State), encode (.ldImm x nn) = wordXB 0x6#4 x nn ∧
    ∃ t, exec (.ldImm x nn) s = .next t ∧ t.getV x = nn ∧ (∀ r, r ≠ x → t.getV r = s.getV r) ∧
      t.pc = s.pc + 2#12 ∧ OnlyChanges [.regs] s t) ∧
  (∀ (x y : Reg) (s : State), encode (.ldReg x y) = wordXYN 0x8#4 x y 0x0#4 ∧
    ∃ t, exec (.ldReg x y) s = .next t ∧ t.getV x = s.getV y ∧ (∀ r, r ≠ x → t.getV r = s.getV r) ∧
      t.pc = s.pc + 2#12 ∧ OnlyChanges [.regs] s t)

/-- 41_register_ops R92: the carry is discarded and `VF` written only as a destination. -/
def Obligations.AddImmediateWrapsWithoutFlag : Prop :=
  ∀ (x : Reg) (nn : Byte) (s : State), encode (.addImm x nn) = wordXB 0x7#4 x nn ∧
    ∃ t, exec (.addImm x nn) s = .next t ∧
      (t.getV x).toNat = ((s.getV x).toNat + nn.toNat) % 256 ∧ (∀ r, r ≠ x → t.getV r = s.getV r) ∧
      t.pc = s.pc + 2#12 ∧ OnlyChanges [.regs] s t

/-- 41_register_ops R94 to R96: bit by bit, and `VF` written only as a destination. -/
def Obligations.LogicBitwiseWithoutFlag : Prop :=
  ∀ (x y : Reg) (s : State),
    encode (.orReg x y) = wordXYN 0x8#4 x y 0x1#4 ∧ encode (.andReg x y) = wordXYN 0x8#4 x y 0x2#4 ∧
    encode (.xorReg x y) = wordXYN 0x8#4 x y 0x3#4 ∧
    (∃ t, exec (.orReg x y) s = .next t ∧
      (∀ k, k < 8 → (t.getV x).getLsbD k = ((s.getV x).getLsbD k || (s.getV y).getLsbD k)) ∧
      (∀ r, r ≠ x → t.getV r = s.getV r) ∧ t.pc = s.pc + 2#12 ∧ OnlyChanges [.regs] s t) ∧
    (∃ t, exec (.andReg x y) s = .next t ∧
      (∀ k, k < 8 → (t.getV x).getLsbD k = ((s.getV x).getLsbD k && (s.getV y).getLsbD k)) ∧
      (∀ r, r ≠ x → t.getV r = s.getV r) ∧ t.pc = s.pc + 2#12 ∧ OnlyChanges [.regs] s t) ∧
    (∃ t, exec (.xorReg x y) s = .next t ∧
      (∀ k, k < 8 → (t.getV x).getLsbD k = ((s.getV x).getLsbD k ^^ (s.getV y).getLsbD k)) ∧
      (∀ r, r ≠ x → t.getV r = s.getV r) ∧ t.pc = s.pc + 2#12 ∧ OnlyChanges [.regs] s t)

/-- 41_register_ops R97, with R90's order: for `x = 15` the sum stands in `VF`. -/
def Obligations.AddRegistersSetsCarry : Prop :=
  ∀ (x y : Reg) (s : State), encode (.addReg x y) = wordXYN 0x8#4 x y 0x4#4 ∧
    ∃ t, exec (.addReg x y) s = .next t ∧
      (t.getV x).toNat = ((s.getV x).toNat + (s.getV y).toNat) % 256 ∧
      (x ≠ 15 → t.getV 15 = if 255 < (s.getV x).toNat + (s.getV y).toNat then 1#8 else 0#8) ∧
      (∀ r, r ≠ x → r ≠ 15 → t.getV r = s.getV r) ∧ t.pc = s.pc + 2#12 ∧ OnlyChanges [.regs] s t

/-- 41_register_ops R98, R100, with R90's order: for `x = 15` the difference stands in `VF`. -/
def Obligations.SubtractsSetNoBorrow : Prop :=
  ∀ (x y : Reg) (s : State),
    encode (.subReg x y) = wordXYN 0x8#4 x y 0x5#4 ∧ encode (.subn x y) = wordXYN 0x8#4 x y 0x7#4 ∧
    (∃ t, exec (.subReg x y) s = .next t ∧
      (t.getV x).toNat = (256 + (s.getV x).toNat - (s.getV y).toNat) % 256 ∧
      (x ≠ 15 → t.getV 15 = if (s.getV y).toNat ≤ (s.getV x).toNat then 1#8 else 0#8) ∧
      (∀ r, r ≠ x → r ≠ 15 → t.getV r = s.getV r) ∧ t.pc = s.pc + 2#12 ∧ OnlyChanges [.regs] s t) ∧
    (∃ t, exec (.subn x y) s = .next t ∧
      (t.getV x).toNat = (256 + (s.getV y).toNat - (s.getV x).toNat) % 256 ∧
      (x ≠ 15 → t.getV 15 = if (s.getV x).toNat ≤ (s.getV y).toNat then 1#8 else 0#8) ∧
      (∀ r, r ≠ x → r ≠ 15 → t.getV r = s.getV r) ∧ t.pc = s.pc + 2#12 ∧ OnlyChanges [.regs] s t)

/-- 41_register_ops R99, R101, for both values of `SHIFT_SOURCE`, with R90's order. -/
def Obligations.ShiftsCaptureTheBitOut : Prop :=
  ∀ (x y : Reg) (s : State) (a : Nat),
    ((s.cfg.shiftSource = .vx ∧ a = (s.getV x).toNat) ∨ (s.cfg.shiftSource = .vy ∧ a = (s.getV y).toNat)) →
    encode (.shr x y) = wordXYN 0x8#4 x y 0x6#4 ∧ encode (.shl x y) = wordXYN 0x8#4 x y 0xE#4 ∧
    (∃ t, exec (.shr x y) s = .next t ∧ (t.getV x).toNat = a / 2 ∧
      (x ≠ 15 → (t.getV 15).toNat = a % 2) ∧
      (∀ r, r ≠ x → r ≠ 15 → t.getV r = s.getV r) ∧ t.pc = s.pc + 2#12 ∧ OnlyChanges [.regs] s t) ∧
    (∃ t, exec (.shl x y) s = .next t ∧ (t.getV x).toNat = 2 * a % 256 ∧
      (x ≠ 15 → (t.getV 15).toNat = a / 128) ∧
      (∀ r, r ≠ x → r ≠ 15 → t.getV r = s.getV r) ∧ t.pc = s.pc + 2#12 ∧ OnlyChanges [.regs] s t)

/-! ### Index register and memory -/

/-- 42_index_memory R102 to R104. -/
def Obligations.IndexWritersSetI : Prop :=
  (∀ (nnn : Addr) (s : State), encode (.ldI nnn) = 0xA#4 ++ nnn ∧
    ∃ t, exec (.ldI nnn) s = .next t ∧ t.index = nnn ∧ t.pc = s.pc + 2#12 ∧ OnlyChanges [.index] s t) ∧
  (∀ (x : Reg) (s : State), encode (.addI x) = wordXB 0xF#4 x 0x1E#8 ∧
    ∃ t, exec (.addI x) s = .next t ∧ t.index.toNat = (s.index.toNat + (s.getV x).toNat) % 4096 ∧
      t.pc = s.pc + 2#12 ∧ OnlyChanges [.index] s t) ∧
  (∀ (x : Reg) (s : State), encode (.ldF x) = wordXB 0xF#4 x 0x29#8 ∧
    ∃ t, exec (.ldF x) s = .next t ∧ t.index.toNat = s.cfg.fontBase.val + 5 * ((s.getV x).toNat % 16) ∧
      t.pc = s.pc + 2#12 ∧ OnlyChanges [.index] s t)

/-- 42_index_memory R105, and no torn write (60_exceptions R133). -/
def Obligations.BcdStoresThreeDigits : Prop :=
  ∀ (x : Reg) (s : State), encode (.ldB x) = wordXB 0xF#4 x 0x33#8 ∧
    (s.index.toNat + 2 ≤ 0xFFF → ∃ t, exec (.ldB x) s = .next t ∧
      (t.byteAt (s.blockAddr 0)).toNat = (s.getV x).toNat / 100 ∧
      (t.byteAt (s.blockAddr 1)).toNat = (s.getV x).toNat / 10 % 10 ∧
      (t.byteAt (s.blockAddr 2)).toNat = (s.getV x).toNat % 10 ∧
      (∀ a, s.blockAddr 0 = a → ∀ b, b < a ∨ a + 2 < b → t.byteAt b = s.byteAt b) ∧
      t.pc = s.pc + 2#12 ∧ OnlyChanges [.memory] s t) ∧
    (0xFFF < s.index.toNat + 2 →
      exec (.ldB x) s = .fault (.addressOutOfRange ⟨some (wordXB 0xF#4 x 0x33#8), s.pc, some 0x1000⟩)) ∧
    (∀ f, exec (.ldB x) s = .fault f → s.afterFault f = s)

/-- 42_index_memory R106, for both values of `LOADSTORE_INCREMENTS_I`. -/
def Obligations.DumpStoresRegisters : Prop :=
  ∀ (x : Reg) (s : State), encode (.ldMemV x) = wordXB 0xF#4 x 0x55#8 ∧
    (s.index.toNat + x.val ≤ 0xFFF → ∃ t, exec (.ldMemV x) s = .next t ∧
      (∀ r : Reg, r.val ≤ x.val → t.byteAt (s.blockAddr r.val) = s.getV r) ∧
      (∀ a, s.blockAddr 0 = a → ∀ b, b < a ∨ a + x.val < b → t.byteAt b = s.byteAt b) ∧
      (s.cfg.loadStoreIncrementsI = false → t.index = s.index) ∧
      (s.cfg.loadStoreIncrementsI = true → t.index.toNat = (s.index.toNat + x.val + 1) % 4096) ∧
      t.pc = s.pc + 2#12 ∧ OnlyChanges [.memory, .index] s t) ∧
    (0xFFF < s.index.toNat + x.val →
      exec (.ldMemV x) s = .fault (.addressOutOfRange ⟨some (wordXB 0xF#4 x 0x55#8), s.pc, some 0x1000⟩)) ∧
    (∀ f, exec (.ldMemV x) s = .fault f → s.afterFault f = s)

/-- 42_index_memory R107, for both values of `LOADSTORE_INCREMENTS_I`. -/
def Obligations.LoadReadsRegisters : Prop :=
  ∀ (x : Reg) (s : State), encode (.ldVMem x) = wordXB 0xF#4 x 0x65#8 ∧
    (s.index.toNat + x.val ≤ 0xFFF → ∃ t, exec (.ldVMem x) s = .next t ∧
      (∀ r : Reg, r.val ≤ x.val → t.getV r = s.byteAt (s.blockAddr r.val)) ∧
      (∀ r : Reg, x.val < r.val → t.getV r = s.getV r) ∧
      (s.cfg.loadStoreIncrementsI = false → t.index = s.index) ∧
      (s.cfg.loadStoreIncrementsI = true → t.index.toNat = (s.index.toNat + x.val + 1) % 4096) ∧
      t.pc = s.pc + 2#12 ∧ OnlyChanges [.regs, .index] s t) ∧
    (0xFFF < s.index.toNat + x.val →
      exec (.ldVMem x) s = .fault (.addressOutOfRange ⟨some (wordXB 0xF#4 x 0x65#8), s.pc, some 0x1000⟩)) ∧
    (∀ f, exec (.ldVMem x) s = .fault f → s.afterFault f = s)

/-! ### Random, display, input, timers -/

/-- 43_random R109, for every value on `rand`, and every result the mask allows is possible. -/
def Obligations.RndMasksTheRandomByte : Prop :=
  ∀ (x : Reg) (nn : Byte) (s : State), encode (.rnd x nn) = wordXB 0xC#4 x nn ∧
    (∃ t, exec (.rnd x nn) s = .next t ∧ t.getV x = s.env.rand &&& nn ∧
      (∀ r, r ≠ x → t.getV r = s.getV r) ∧ t.pc = s.pc + 2#12 ∧ OnlyChanges [.regs] s t) ∧
    (∀ b : Byte, b &&& ~~~nn = 0#8 →
      ∃ rand t, exec (.rnd x nn) (s.setEnv { s.env with rand := rand }) = .next t ∧ t.getV x = b)

/-- 44_display R114 with the engine of R113: each sprite pixel is inverted where the sprite bit is 1, every other pixel
stays, and `VF` says whether one went from 1 to 0. -/
def Obligations.DrwXorsTheSprite : Prop :=
  ∀ (x y : Reg) (n : Nat) (s : State), n < 16 →
    encode (.drw x y n) = wordXYN 0xD#4 x y (BitVec.ofNat 4 n) ∧
    (1 ≤ n ∧ 0xFFF < s.index.toNat + n - 1 → exec (.drw x y n) s =
      .fault (.addressOutOfRange ⟨some (wordXYN 0xD#4 x y (BitVec.ofNat 4 n)), s.pc, some 0x1000⟩)) ∧
    (n = 0 ∨ s.index.toNat + n - 1 ≤ 0xFFF → ∃ t, exec (.drw x y n) s = .next t ∧
      (∀ (r b : Nat) (row : Fin 32) (col : Fin 64), r < n → b < 8 →
        row.val = ((s.getV y).toNat + r) % 32 → col.val = ((s.getV x).toNat + b) % 64 →
        Framebuffer.pixel t.fb row col =
          (Framebuffer.pixel s.fb row col ^^ (s.byteAt (s.blockAddr r)).getLsbD (7 - b))) ∧
      (∀ (row : Fin 32) (col : Fin 64),
        (∀ r b : Nat, r < n → b < 8 →
          ¬(row.val = ((s.getV y).toNat + r) % 32 ∧ col.val = ((s.getV x).toNat + b) % 64)) →
        Framebuffer.pixel t.fb row col = Framebuffer.pixel s.fb row col) ∧
      (t.getV 15 = 0#8 ∨ t.getV 15 = 1#8) ∧
      (t.getV 15 = 1#8 ↔ ∃ (row : Fin 32) (col : Fin 64),
        Framebuffer.pixel s.fb row col = true ∧ Framebuffer.pixel t.fb row col = false) ∧
      (∀ r, r ≠ 15 → t.getV r = s.getV r) ∧ t.pc = s.pc + 2#12 ∧ OnlyChanges [.regs, .display] s t) ∧
    (∀ f, exec (.drw x y n) s = .fault f → s.afterFault f = s)

/-- 45_input R118, R119, the key named by the low 4 bits (R117). -/
def Obligations.KeySkipsTestTheFlag : Prop :=
  ∀ (x : Reg) (s : State) (k : Key), k.val = (s.getV x).toNat % 16 →
    encode (.skp x) = wordXB 0xE#4 x 0x9E#8 ∧ encode (.sknp x) = wordXB 0xE#4 x 0xA1#8 ∧
    (∃ t, exec (.skp x) s = .next t ∧
      t.pc = (if s.keyDown k = true then s.pc + 4#12 else s.pc + 2#12) ∧ OnlyChanges [] s t) ∧
    (∃ t, exec (.sknp x) s = .next t ∧
      t.pc = (if s.keyDown k = true then s.pc + 2#12 else s.pc + 4#12) ∧ OnlyChanges [] s t)

/-- 45_input R120. -/
def Obligations.LdKEntersTheWait : Prop :=
  ∀ (x : Reg) (s : State), encode (.ldVK x) = wordXB 0xF#4 x 0x0A#8 ∧
    ∃ t, exec (.ldVK x) s = .next t ∧ t.mode = .awaitingKey ∧ t.waitX = x ∧ t.pc = s.pc ∧ OnlyChanges [.wait] s t

/-- 46_timers R124 to R126. -/
def Obligations.TimerInstructionsCopy : Prop :=
  ∀ (x : Reg) (s : State),
    encode (.ldVDt x) = wordXB 0xF#4 x 0x07#8 ∧ encode (.ldDtV x) = wordXB 0xF#4 x 0x15#8 ∧
    encode (.ldStV x) = wordXB 0xF#4 x 0x18#8 ∧
    (∃ t, exec (.ldVDt x) s = .next t ∧ t.getV x = s.dt ∧ (∀ r, r ≠ x → t.getV r = s.getV r) ∧
      t.pc = s.pc + 2#12 ∧ OnlyChanges [.regs] s t) ∧
    (∃ t, exec (.ldDtV x) s = .next t ∧ t.dt = s.getV x ∧ t.pc = s.pc + 2#12 ∧ OnlyChanges [.delay] s t) ∧
    (∃ t, exec (.ldStV x) s = .next t ∧ t.st = s.getV x ∧ t.pc = s.pc + 2#12 ∧ OnlyChanges [.sound] s t)

/-! ### Host operations -/

/-- 45_input R121, R122: and no other operation, but for a reset, writes `KEY`. -/
def Obligations.SetKeySetsOneFlagAndEndsAWait : Prop :=
  ∀ (s : State) (k : Key) (pressed : Bool), ∃ t, s.perform (.setKey k pressed) = .next t ∧
    t.keyDown k = pressed ∧ (∀ q, q ≠ k → t.keyDown q = s.keyDown q) ∧
    (s.mode = .awaitingKey ∧ pressed = true ∧ s.keyDown k = false →
      (t.getV s.waitX).toNat = k.val ∧ (∀ r, r ≠ s.waitX → t.getV r = s.getV r) ∧
      t.pc = s.pc + 2#12 ∧ t.mode = .running ∧ t.waitX = s.waitX ∧ OnlyChanges [.keys, .regs, .wait] s t) ∧
    (¬(s.mode = .awaitingKey ∧ pressed = true ∧ s.keyDown k = false) → t.pc = s.pc ∧ OnlyChanges [.keys] s t) ∧
    (∀ (op : HostOp) (u : State), op ≠ .reset → (∀ q p, op ≠ .setKey q p) → s.perform op = .next u →
      ∀ q, u.keyDown q = s.keyDown q)

/-- 60_exceptions R145, in either mode. -/
def Obligations.TickCountsBothTimersDown : Prop :=
  ∀ s : State, ∃ t, s.perform .tickTimers = .next t ∧
    t.dt.toNat = s.dt.toNat - 1 ∧ t.st.toNat = s.st.toNat - 1 ∧ t.pc = s.pc ∧ OnlyChanges [.delay, .sound] s t

/-- 20_memory R47 for a load the host's contract allows. That the load must be open (`loadOpen`), and that an accepted load
closes it, is the model's choice, not R47's: log entry 8, from 70_reset R165 and decision D26. -/
def Obligations.LoadProgramCopiesOrRejects : Prop :=
  ∀ (s : State) (bytes : List Byte), s.env.loadOpen = true →
    (bytes.length ≤ 3584 → ∃ t, s.perform (.loadProgram bytes) = .next t ∧
      (∀ (j : Nat) (b : Byte), bytes[j]? = some b → t.byteAt (0x200 + j) = b) ∧
      (∀ a, a < 0x200 ∨ 0x200 + bytes.length ≤ a → t.byteAt a = s.byteAt a) ∧
      t.pc = s.pc ∧ t.cfg = s.cfg ∧ t.env = { s.env with loadOpen := false } ∧ OnlyChanges [.memory, .setup] s t) ∧
    (3584 < bytes.length → s.perform (.loadProgram bytes) = .fault .programTooLarge ∧
      s.afterFault .programTooLarge = s)

/-- A load after the first step, or a second one, is refused: what decision D26 asks of a model (70_reset R165, log
entry 8). -/
def Obligations.LateLoadRefused : Prop :=
  (∀ (s : State) (bytes : List Byte), s.env.loadOpen = false →
    s.perform (.loadProgram bytes) = .refused .loadOutOfContract) ∧
  (∀ (s t : State) (rand : Byte), s.perform (.step rand) = .next t → t.env.loadOpen = false) ∧
  (∀ (s t : State) (bytes : List Byte), s.perform (.loadProgram bytes) = .next t → t.env.loadOpen = false)

/-- 70_reset R160: from any state, at any parameters. -/
def Obligations.ResetSetsEveryElement : Prop :=
  AtReset State.reset ∧ State.reset.isSoundActive = false ∧
  ∀ s : State, ∃ t, s.perform .reset = .next t ∧ AtReset t ∧ t.cfg = s.cfg ∧ t.isSoundActive = false ∧
    (∀ col row, t.isSet col row = false)

/-- 46_timers R127 and 44_display R116, after the instructions that write what they read. -/
def Obligations.ObserversFollowTheState : Prop :=
  (∀ s : State, s.isSoundActive = true ↔ 0 < s.st.toNat) ∧
  (∀ (s : State) (col : Fin 64) (row : Fin 32), s.isSet col row = Framebuffer.pixel s.fb row col) ∧
  (∀ (x : Reg) (s : State), ∃ t, exec (.ldStV x) s = .next t ∧ (t.isSoundActive = true ↔ s.getV x ≠ 0#8)) ∧
  (∀ s : State, s.st = 1#8 → ∃ t, s.perform .tickTimers = .next t ∧ t.isSoundActive = false)

/-! ### Invariants -/

/-- Every step, whatever the host does, keeps memory canonical and the wait coherent. -/
def Obligations.StepKeepsInvariant : Prop := ∀ s t : State, s.Inv → step s = .next t → t.Inv

/-- The invariant holds at reset. -/
def Obligations.ResetMeetsInvariant : Prop := State.reset.Inv

/-- Canonical memories that read alike are equal data. -/
def Obligations.CanonicalMemoryIsUnique : Prop :=
  ∀ (cfg : Config) (m m' : Memory), Memory.wf cfg m = true → Memory.wf cfg m' = true →
    (∀ a, a < 4096 → Memory.read cfg m a = Memory.read cfg m' a) → m = m'

/-! ### Errors -/

/-- 60_exceptions R132, R134: the conditions and the records, complete. -/
def Obligations.StepRaisesExactlyTheTable : Prop :=
  ∀ (s : State) (f : Fault), s.coreStep = .fault f ↔ s.mode = .running ∧ StepRaises s f

/-- 60_exceptions R139. -/
def Obligations.InvalidRegisterNeverRaised : Prop :=
  (∀ (s : State) (e : ErrorRecord), step s ≠ .fault (.invalidRegister e)) ∧
  (∀ (i : Instr) (s : State) (e : ErrorRecord), exec i s ≠ .fault (.invalidRegister e))

/-- No instruction is refused, and a step is refused only for a load outside the host's contract. -/
def Obligations.OnlyLateLoadsAreRefused : Prop :=
  (∀ (i : Instr) (s : State) (r : Refusal), exec i s ≠ .refused r) ∧
  (∀ (s : State) (r : Refusal), step s = .refused r →
    r = .loadOutOfContract ∧ s.env.loadOpen = false ∧ ∃ bytes rest, s.env.script = .loadProgram bytes :: rest)

/-- 60_exceptions R133, with its single exception. -/
def Obligations.FailingStepLeavesTheCore : Prop :=
  ∀ (s : State) (f : Fault), step s = .fault f →
    OnlyChanges [.setup] s (s.afterStepFault f) ∧ (s.afterStepFault f).cfg = s.cfg ∧
    (¬(s.cfg.unknownOpcodePolicy = .skip ∧ ∃ e, f = .unknownOpcode e) → (s.afterStepFault f).pc = s.pc) ∧
    (s.cfg.unknownOpcodePolicy = .skip → (∃ e, f = .unknownOpcode e) → (s.afterStepFault f).pc = s.pc + 2#12)

/-- Another `step` after an error that left the state unchanged fails in the same way, whatever `rand` it is given
(60_exceptions R137). -/
def Obligations.RepeatedStepFailsAgain : Prop :=
  ∀ (s : State) (f : Fault) (b b' : Byte) (rest : List HostOp),
    s.env.script = .step b :: .step b' :: rest → step s = .fault f →
    (∀ e, f = .unknownOpcode e → s.cfg.unknownOpcodePolicy = .halt) →
    step (s.afterStepFault f) = .fault f

/-! ### Rules over all instructions -/

/-- The frame of every instruction: the parts it does not name stay, whole (10_state R10 to R18, 20_memory R40). -/
def Obligations.InstructionsChangeOnlyTheirParts : Prop :=
  ∀ (i : Instr) (s t : State), exec i s = .next t → OnlyChanges (mayChange i) s t

/-- 30_encoding R67. -/
def Obligations.PcAfterEachInstruction : Prop :=
  ∀ (i : Instr) (s t : State), exec i s = .next t →
    (match i with
      | .ret => ∃ j : Fin 16, s.sp.val = j.val + 1 ∧ t.pc = s.slot j
      | .jp nnn => t.pc = nnn
      | .call nnn => t.pc = nnn
      | .jpV0 nnn => t.pc.toNat = (nnn.toNat + (s.getV 0).toNat) % 4096
      | .seImm x nn => t.pc = if s.getV x = nn then s.pc + 4#12 else s.pc + 2#12
      | .sneImm x nn => t.pc = if s.getV x ≠ nn then s.pc + 4#12 else s.pc + 2#12
      | .seReg x y => t.pc = if s.getV x = s.getV y then s.pc + 4#12 else s.pc + 2#12
      | .sneReg x y => t.pc = if s.getV x ≠ s.getV y then s.pc + 4#12 else s.pc + 2#12
      | .skp x => t.pc = if s.keyDown (s.lowNibble x) = true then s.pc + 4#12 else s.pc + 2#12
      | .sknp x => t.pc = if s.keyDown (s.lowNibble x) = false then s.pc + 4#12 else s.pc + 2#12
      | .ldVK _ => t.pc = s.pc
      | _ => t.pc = s.pc + 2#12)

/-- `VF` changes only by an instruction that names it as `Vx`, by a load up to it, or by one of the six that have a flag
(10_state R11). -/
def Obligations.OnlyFlagInstructionsWriteVF : Prop :=
  ∀ (i : Instr) (s t : State), exec i s = .next t → t.getV 15 ≠ s.getV 15 →
    (∃ nn, i = .ldImm 15 nn ∨ i = .addImm 15 nn ∨ i = .rnd 15 nn) ∨
    (∃ y, i = .ldReg 15 y ∨ i = .orReg 15 y ∨ i = .andReg 15 y ∨ i = .xorReg 15 y) ∨
    i = .ldVMem 15 ∨ i = .ldVDt 15 ∨
    (∃ x y, i = .addReg x y ∨ i = .subReg x y ∨ i = .shr x y ∨ i = .subn x y ∨ i = .shl x y) ∨
    (∃ x y n, i = .drw x y n)

/-- The dispatcher starts to wait only by running `LD Vx, K`, and stops only by a press of a released key or a reset
(10_state R18). -/
def Obligations.ModeChangesOnlyByWaitAndKey : Prop :=
  ∀ s t : State, step s = .next t →
    (s.mode = .running → t.mode = .awaitingKey →
      (∃ b, s.nextOp.1 = .step b) ∧ s.pc ≠ 0xFFF#12 ∧ decode (wordAtPc s) = .ok (.ldVK t.waitX)) ∧
    (s.mode = .awaitingKey → t.mode = .running →
      s.nextOp.1 = .reset ∨ ∃ k, s.nextOp.1 = .setKey k true ∧ s.keyDown k = false ∧ t.keyDown k = true)

/-- No operation changes the parameters (10_state R20), and none but `setKey` and `reset` the key flags (R17). -/
def Obligations.ParametersAndKeysAreTheHosts : Prop :=
  ∀ s t : State, step s = .next t →
    t.cfg = s.cfg ∧ (s.nextOp.1 ≠ .reset → (∀ k p, s.nextOp.1 ≠ .setKey k p) → ∀ q, t.keyDown q = s.keyDown q)

/-- A tick before an instruction that does not name a timer is the same as a tick after it (60_exceptions R145). -/
def Obligations.TicksCommuteWithInstructions : Prop :=
  ∀ (i : Instr) (s t : State), (∀ x, i ≠ .ldVDt x ∧ i ≠ .ldDtV x ∧ i ≠ .ldStV x) →
    exec i s = .next t → exec i s.tickTimers = .next t.tickTimers

/-- Only `RND` reads `rand` (43_random R110). -/
def Obligations.OnlyRndReadsRand : Prop :=
  ∀ (i : Instr) (s t : State) (b : Byte), (∀ x nn, i ≠ .rnd x nn) → exec i s = .next t →
    exec i (s.setEnv { s.env with rand := b }) = .next (t.setEnv { t.env with rand := b })

/-- 44_display R115; the part on collisions is what R115 marks as derived from R113: the area drawn on is clear where `drawSprite` would put a pixel of the sprite. -/
def Obligations.DrawingTwiceRestores : Prop :=
  ∀ (fb : Framebuffer) (x0 y0 : Byte) (rows : List Byte), rows.length ≤ 15 →
    (drawSprite (drawSprite fb x0 y0 rows).1 x0 y0 rows).1 = fb ∧
    ((∀ (r b : Nat) (row : Fin 32) (col : Fin 64), r < rows.length → b < 8 →
        row.val = (y0.toNat + r) % 32 → col.val = (x0.toNat + b) % 64 → Framebuffer.pixel fb row col = false) →
      (drawSprite fb x0 y0 rows).2 = false ∧
      ((∃ byte ∈ rows, byte ≠ 0#8) → (drawSprite (drawSprite fb x0 y0 rows).1 x0 y0 rows).2 = true))

/-! ### Memory -/

/-- 20_memory R41, R42. -/
def Obligations.ReadAfterWrite : Prop :=
  ∀ (s : State) (a : Nat) (v : Byte),
    (a ≤ 0xFFF → s.memRead a = some (s.byteAt a) ∧ ∃ t, s.memWrite a v = some t ∧ t.memRead a = some v ∧
      (∀ b, b ≠ a → t.byteAt b = s.byteAt b) ∧ t.pc = s.pc ∧ OnlyChanges [.memory] s t) ∧
    (0xFFF < a → s.memRead a = none ∧ s.memWrite a v = none)

/-- A word a dump stores at `PC`'s successor is the word the next step fetches (20_memory R52). -/
def Obligations.StoredBytesAreFetchedNext : Prop :=
  ∀ (x : Reg) (s t : State) (r : Reg), exec (.ldMemV x) s = .next t → t.pc ≠ 0xFFF#12 → r.val + 1 ≤ x.val →
    s.blockAddr r.val = t.pc.toNat → ∀ r' : Reg, r'.val = r.val + 1 →
    t.fetch = some (s.getV r ++ s.getV r')

/-! ### Control -/

/-- `RET` right after `CALL` goes on after the call, with the stack pointer as it was (40_control_flow R81, R83). -/
def Obligations.CallThenReturn : Prop :=
  ∀ (nnn : Addr) (s : State), s.sp ≠ 16 →
    ∃ t u, exec (.call nnn) s = .next t ∧ exec .ret t = .next u ∧
      u.pc = s.pc + 2#12 ∧ u.sp = s.sp ∧ OnlyChanges [.stack] s u

/-- A jump to itself stays: a step of a completed program changes nothing of the core (70_reset R169). -/
def Obligations.JumpToSelfStays : Prop :=
  ∀ (s : State) (b : Byte) (rest : List HostOp), s.Completed → s.env.script = .step b :: rest →
    ∃ t, step s = .next t ∧ t.Completed ∧ t.pc = s.pc ∧ OnlyChanges [.setup] s t ∧ t.cfg = s.cfg

/-- A completed program never errs, whatever steps, ticks and key events the host goes on with (70_reset R169). -/
def Obligations.CompletedProgramRunsSafely : Prop :=
  ∀ s : State, s.Completed → (∀ op ∈ s.env.script, op.goesOn = true) →
    s.RunsSafely ∧ ∀ t, Reaches s t → t.Completed ∧ t.pc = s.pc ∧
      OnlyChanges [.delay, .sound, .keys, .setup] s t

/-! ### Assembler syntax -/

/-- 30_encoding R69: every instruction has a line, and a line with its operands in range selects one instruction: itself, or,
for a shift written without `Vy`, the one with `y = 0`. That a number out of range selects none is log entry 16. -/
def Obligations.AssemblerLinesSelectOneInstruction : Prop :=
  (∀ i : Instr, i.WellFormed = true → assemble i.asmName i.asmOperands = some (.instr i)) ∧
  (∀ x : Reg, assemble .shr [.reg x] = some (.instr (.shr x 0)) ∧ assemble .shl [.reg x] = some (.instr (.shl x 0))) ∧
  (∀ b : Byte, assemble .db [.num b.toNat] = some (.data b)) ∧
  (∀ (name : AsmName) (ops : List AsmOperand) (i : Instr), assemble name ops = some (.instr i) →
    i.WellFormed = true ∧
    ((name = i.asmName ∧ ops = i.asmOperands) ∨
      (∃ x, i = .shr x 0 ∧ name = .shr ∧ ops = [.reg x]) ∨ (∃ x, i = .shl x 0 ∧ name = .shl ∧ ops = [.reg x]))) ∧
  (∀ (name : AsmName) (ops : List AsmOperand) (b : Byte), assemble name ops = some (.data b) →
    name = .db ∧ ops = [.num b.toNat])

/-- 30_encoding R69, 41_register_ops R99, R101: with `SHIFT_SOURCE = VX` the `y` of a shift has no effect, as an operand or
as a field of the fetched word; with `VY` the old value of `Vx` has none on the result and the flag. -/
def Obligations.ShiftsIgnoreTheOtherRegister : Prop :=
  (∀ (s : State) (x y y' : Reg), s.cfg.shiftSource = .vx →
    exec (.shr x y) s = exec (.shr x y') s ∧ exec (.shl x y) s = exec (.shl x y') s ∧
    s.runWord (wordXYN 0x8#4 x y 0x6#4) = exec (.shr x y') s ∧
    s.runWord (wordXYN 0x8#4 x y 0xE#4) = exec (.shl x y') s) ∧
  (∀ (s : State) (x y : Reg) (a : Byte), s.cfg.shiftSource = .vy → x ≠ y →
    (∃ t t', exec (.shr x y) s = .next t ∧ exec (.shr x y) (s.setV x a) = .next t' ∧
      t'.getV x = t.getV x ∧ t'.getV 15 = t.getV 15) ∧
    (∃ t t', exec (.shl x y) s = .next t ∧ exec (.shl x y) (s.setV x a) = .next t' ∧
      t'.getV x = t.getV x ∧ t'.getV 15 = t.getV 15))
end

