-- ==== Sys2Proof/Laws/Assembler.lean ====
section
/-!
SUPPORT. A number as a field of an assembler line: exactly the values of the field are accepted (30_encoding R64, R69).
-/

namespace Sys2Proof

/-- A number that is accepted is the value of the field. -/
theorem asmField_eq_some {w n : Nat} {v : BitVec w} : asmField w n = some v ↔ n = v.toNat := by
  unfold asmField
  constructor
  · intro h
    split at h
    · cases h; simp [Nat.mod_eq_of_lt, *]
    · cases h
  · rintro rfl; simp [v.isLt]

/-- Every value of the field is accepted. -/
@[simp] theorem asmField_toNat {w : Nat} (v : BitVec w) : asmField w v.toNat = some v := asmField_eq_some.2 rfl

end Sys2Proof
end

