-- ==== Sys2Proof/Laws/Decode.lean ====
section
/-!
SUPPORT. The words of the formats and the fields of a word as numbers (30_encoding R62, R63), and the fields of each
format's word.
-/

namespace Sys2Proof

/-- A concatenation as a number. -/
theorem append_toNat {m n : Nat} (a : BitVec m) (b : BitVec n) : (a ++ b).toNat = a.toNat * 2 ^ n + b.toNat := by
  rw [BitVec.toNat_append, ← Nat.shiftLeft_add_eq_or_of_lt b.isLt, Nat.shiftLeft_eq]

theorem regBits_toNat (x : Reg) : (regBits x).toNat = x.val := by
  have := x.isLt
  simp [regBits]

theorem wordA_toNat (op : BitVec 4) (nnn : Addr) : (wordA op nnn).toNat = op.toNat * 4096 + nnn.toNat := append_toNat op nnn

theorem wordXB_toNat (op : BitVec 4) (x : Reg) (nn : Byte) :
    (wordXB op x nn).toNat = op.toNat * 4096 + x.val * 256 + nn.toNat := by
  simp only [wordXB, append_toNat, regBits_toNat]; omega

theorem wordXYN_toNat (op : BitVec 4) (x y : Reg) (n : BitVec 4) :
    (wordXYN op x y n).toNat = op.toNat * 4096 + x.val * 256 + y.val * 16 + n.toNat := by
  simp only [wordXYN, append_toNat, regBits_toNat]; omega

theorem wordOfBytes_toNat (hi lo : Byte) : (wordOfBytes hi lo).toNat = hi.toNat * 256 + lo.toNat := append_toNat hi lo

theorem fieldOp_eq (w : InstrWord) : fieldOp w = w.toNat / 4096 := by
  have := w.isLt
  simp only [fieldOp, BitVec.extractLsb'_toNat, Nat.shiftRight_eq_div_pow]; omega

theorem fieldX_val (w : InstrWord) : (fieldX w).val = w.toNat / 256 % 16 := by
  simp only [fieldX, BitVec.extractLsb'_toNat, Nat.shiftRight_eq_div_pow]

theorem fieldY_val (w : InstrWord) : (fieldY w).val = w.toNat / 16 % 16 := by
  simp only [fieldY, BitVec.extractLsb'_toNat, Nat.shiftRight_eq_div_pow]

theorem fieldN_eq (w : InstrWord) : fieldN w = w.toNat % 16 := by
  simp only [fieldN, BitVec.extractLsb'_toNat, Nat.shiftRight_eq_div_pow]; omega

theorem fieldNN_toNat (w : InstrWord) : (fieldNN w).toNat = w.toNat % 256 := by
  simp only [fieldNN, BitVec.extractLsb'_toNat, Nat.shiftRight_eq_div_pow]; omega

theorem fieldNNN_toNat (w : InstrWord) : (fieldNNN w).toNat = w.toNat % 4096 := by
  simp only [fieldNNN, BitVec.extractLsb'_toNat, Nat.shiftRight_eq_div_pow]; omega

@[simp] theorem fieldOp_wordA (op : BitVec 4) (nnn : Addr) : fieldOp (wordA op nnn) = op.toNat := by
  have := nnn.isLt
  rw [fieldOp_eq, wordA_toNat]; omega

@[simp] theorem fieldNNN_wordA (op : BitVec 4) (nnn : Addr) : fieldNNN (wordA op nnn) = nnn := by
  have := nnn.isLt
  apply BitVec.eq_of_toNat_eq
  rw [fieldNNN_toNat, wordA_toNat]; omega

@[simp] theorem fieldOp_wordXB (op : BitVec 4) (x : Reg) (nn : Byte) : fieldOp (wordXB op x nn) = op.toNat := by
  have := nn.isLt
  have := x.isLt
  rw [fieldOp_eq, wordXB_toNat]; omega

@[simp] theorem fieldX_wordXB (op : BitVec 4) (x : Reg) (nn : Byte) : fieldX (wordXB op x nn) = x := by
  have := nn.isLt
  have := x.isLt
  apply Fin.ext
  rw [fieldX_val, wordXB_toNat]; omega

@[simp] theorem fieldNN_wordXB (op : BitVec 4) (x : Reg) (nn : Byte) : fieldNN (wordXB op x nn) = nn := by
  have := nn.isLt
  apply BitVec.eq_of_toNat_eq
  rw [fieldNN_toNat, wordXB_toNat]; omega

@[simp] theorem fieldOp_wordXYN (op : BitVec 4) (x y : Reg) (n : BitVec 4) : fieldOp (wordXYN op x y n) = op.toNat := by
  have := n.isLt
  have := x.isLt
  have := y.isLt
  rw [fieldOp_eq, wordXYN_toNat]; omega

@[simp] theorem fieldX_wordXYN (op : BitVec 4) (x y : Reg) (n : BitVec 4) : fieldX (wordXYN op x y n) = x := by
  have := n.isLt
  have := x.isLt
  have := y.isLt
  apply Fin.ext
  rw [fieldX_val, wordXYN_toNat]; omega

@[simp] theorem fieldY_wordXYN (op : BitVec 4) (x y : Reg) (n : BitVec 4) : fieldY (wordXYN op x y n) = y := by
  have := n.isLt
  have := y.isLt
  apply Fin.ext
  rw [fieldY_val, wordXYN_toNat]; omega

@[simp] theorem fieldN_wordXYN (op : BitVec 4) (x y : Reg) (n : BitVec 4) : fieldN (wordXYN op x y n) = n.toNat := by
  have := n.isLt
  rw [fieldN_eq, wordXYN_toNat]; omega

/-- A word is its fields, in each format. -/
theorem eq_wordA (w : InstrWord) (op : BitVec 4) (h : fieldOp w = op.toNat) : wordA op (fieldNNN w) = w := by
  apply BitVec.eq_of_toNat_eq
  rw [wordA_toNat, fieldNNN_toNat, ← h, fieldOp_eq]; omega

theorem eq_wordXB (w : InstrWord) (op : BitVec 4) (h : fieldOp w = op.toNat) :
    wordXB op (fieldX w) (fieldNN w) = w := by
  apply BitVec.eq_of_toNat_eq
  rw [wordXB_toNat, fieldX_val, fieldNN_toNat, ← h, fieldOp_eq]; omega

theorem eq_wordXYN (w : InstrWord) (op n : BitVec 4) (h : fieldOp w = op.toNat) (hn : fieldN w = n.toNat) :
    wordXYN op (fieldX w) (fieldY w) n = w := by
  apply BitVec.eq_of_toNat_eq
  rw [wordXYN_toNat, fieldX_val, fieldY_val, ← h, ← hn, fieldOp_eq, fieldN_eq]; omega

end Sys2Proof
end

