-- ==== Sys2Proof/Laws/Memory.lean ====
section
/-!
SUPPORT. Reads after writes (20_memory R42), and that every memory operation keeps the canonical form.
-/

namespace Sys2Proof.Machine

theorem Memory.find_erase_same (m : Memory) (a : Nat) : Memory.find (Memory.erase m a) a = none := by
  induction m with
  | nil => rfl
  | cons c m ih =>
    by_cases h : c.1 = a
    · simpa [Memory.erase, h] using ih
    · simpa [Memory.erase, Memory.find, h] using ih

theorem Memory.find_erase_ne (m : Memory) {a b : Nat} (h : b ≠ a) :
    Memory.find (Memory.erase m a) b = Memory.find m b := by
  induction m with
  | nil => rfl
  | cons c m ih =>
    by_cases hc : c.1 = a
    · have hb : c.1 ≠ b := fun e => h (e.symm.trans hc)
      have hab : a ≠ b := Ne.symm h
      simpa [Memory.erase, Memory.find, hc, hb, hab] using ih
    · by_cases hb : c.1 = b
      · simp [Memory.erase, Memory.find, hb, h]
      · simpa [Memory.erase, Memory.find, hc, hb] using ih

theorem Memory.find_insert (m : Memory) (a b : Nat) (v : Byte) (hm : Memory.find m a = none) :
    Memory.find (Memory.insert a v m) b = if a = b then some v else Memory.find m b := by
  induction m with
  | nil => simp [Memory.insert, Memory.find]
  | cons c m ih =>
    have hc : c.1 ≠ a := fun e => by simp [Memory.find, e] at hm
    have hm' : Memory.find m a = none := by simpa [Memory.find, hc] using hm
    unfold Memory.insert
    split
    · simp [Memory.find]
    · simp only [Memory.find, ih hm']
      by_cases hb : c.1 = b
      · have hab : a ≠ b := fun e => hc (hb.trans e.symm)
        simp [hb, hab]
      · simp [hb]

/-- At reset the font stands at its base (20_memory R45). -/
theorem Memory.resetByte_font (cfg : Config) (j : Fin 80) :
    Memory.resetByte cfg (cfg.fontBase.val + j.val) = cfg.font.get j := by
  unfold Memory.resetByte
  rw [dif_pos (by have := j.isLt; omega)]
  simp [Vector.get_eq_getElem]

/-- At reset every other byte is 0 (20_memory R45). -/
theorem Memory.resetByte_zero (cfg : Config) (a : Nat) (h : ∀ j : Fin 80, a ≠ cfg.fontBase.val + j.val) :
    Memory.resetByte cfg a = 0 := by
  unfold Memory.resetByte
  rw [dif_neg]
  intro ⟨h1, h2⟩
  have h3 : a ≠ cfg.fontBase.val + (a - cfg.fontBase.val) := h ⟨a - cfg.fontBase.val, h2⟩
  omega

/-- A write is read back where it was made and nowhere else. -/
theorem Memory.read_write (cfg : Config) (m : Memory) (a b : Nat) (v : Byte) :
    Memory.read cfg (Memory.write cfg m a v) b = if b = a then v else Memory.read cfg m b := by
  unfold Memory.write
  by_cases hb : b = a
  · subst hb
    split
    · simp [Memory.read, Memory.find_erase_same, *]
    · simp [Memory.read, Memory.find_insert _ _ _ _ (Memory.find_erase_same m b)]
  · have hab : a ≠ b := Ne.symm hb
    rw [if_neg hb]
    split
    · simp [Memory.read, Memory.find_erase_ne m hb]
    · simp [Memory.read, Memory.find_insert _ _ _ _ (Memory.find_erase_same m a), Memory.find_erase_ne m hb, hab]

/-- What every address holds after a block of bytes is stored. -/
theorem Memory.read_writeBlock (cfg : Config) (bs : List Byte) (m : Memory) (a b : Nat) :
    Memory.read cfg (Memory.writeBlock cfg m a bs) b =
      if h : a ≤ b ∧ b - a < bs.length then bs[b - a]'h.2 else Memory.read cfg m b := by
  induction bs generalizing m a with
  | nil => simp [Memory.writeBlock]
  | cons v vs ih =>
    rw [Memory.writeBlock, ih, Memory.read_write]
    rcases Nat.lt_trichotomy b a with h | h | h
    · have h1 : ¬(a + 1 ≤ b ∧ b - (a + 1) < vs.length) := by omega
      have h2 : ¬(a ≤ b ∧ b - a < (v :: vs).length) := by omega
      rw [dif_neg h1, dif_neg h2, if_neg (Nat.ne_of_lt h)]
    · subst h
      simp
    · have hs : b - a = (b - (a + 1)) + 1 := by omega
      by_cases hl : b - (a + 1) < vs.length
      · have h1 : a + 1 ≤ b ∧ b - (a + 1) < vs.length := ⟨h, hl⟩
        have h2 : a ≤ b ∧ b - a < (v :: vs).length := by simp; omega
        rw [dif_pos h1, dif_pos h2]
        simp [hs]
      · have h1 : ¬(a + 1 ≤ b ∧ b - (a + 1) < vs.length) := by omega
        have h2 : ¬(a ≤ b ∧ b - a < (v :: vs).length) := by simp; omega
        rw [dif_neg h1, dif_neg h2, if_neg (by omega)]

theorem Memory.sortedFrom_mono {lo lo' : Nat} (h : lo' ≤ lo) {m : Memory} (hm : Memory.sortedFrom lo m = true) :
    Memory.sortedFrom lo' m = true := by
  cases m with
  | nil => rfl
  | cons c m => simp only [Memory.sortedFrom, Bool.and_eq_true, decide_eq_true_eq] at hm ⊢; exact ⟨by omega, hm.2⟩

theorem Memory.sortedFrom_erase (m : Memory) (a lo : Nat) (h : Memory.sortedFrom lo m = true) :
    Memory.sortedFrom lo (Memory.erase m a) = true := by
  induction m generalizing lo with
  | nil => rfl
  | cons c m ih =>
    simp only [Memory.sortedFrom, Bool.and_eq_true, decide_eq_true_eq] at h
    by_cases hc : c.1 = a
    · have := Memory.sortedFrom_mono (Nat.le_succ_of_le h.1) (ih _ h.2)
      simpa [Memory.erase, hc] using this
    · have := ih _ h.2
      simp only [Memory.erase] at this ⊢
      simp [hc, Memory.sortedFrom, h.1, this]

theorem Memory.sortedFrom_insert (m : Memory) (a lo : Nat) (v : Byte) (hlo : lo ≤ a)
    (h : Memory.sortedFrom lo m = true) (ha : ∀ c ∈ m, c.1 ≠ a) :
    Memory.sortedFrom lo (Memory.insert a v m) = true := by
  induction m generalizing lo with
  | nil => simp [Memory.insert, Memory.sortedFrom, hlo]
  | cons c m ih =>
    simp only [Memory.sortedFrom, Bool.and_eq_true, decide_eq_true_eq] at h
    have hne := ha c (by simp)
    unfold Memory.insert
    split
    · simp [Memory.sortedFrom, hlo, h.2]; omega
    · have := ih (c.1 + 1) (by omega) h.2 fun d hd => ha d (by simp [hd])
      simp [Memory.sortedFrom, h.1, this]

theorem Memory.mem_insert (m : Memory) (a : Nat) (v : Byte) (c : Host.Cell) :
    c ∈ Memory.insert a v m ↔ c = (a, v) ∨ c ∈ m := by
  induction m with
  | nil => simp [Memory.insert]
  | cons d m ih =>
    unfold Memory.insert
    split
    · simp
    · simp only [List.mem_cons, ih]; tauto

theorem Memory.mem_erase (m : Memory) (a : Nat) (c : Host.Cell) : c ∈ Memory.erase m a ↔ c ∈ m ∧ c.1 ≠ a := by
  simp [Memory.erase]

theorem Memory.wf_iff (cfg : Config) (m : Memory) : Memory.wf cfg m = true ↔
    Memory.sortedFrom 0 m = true ∧ ∀ c ∈ m, c.1 < memorySize ∧ c.2 ≠ Memory.resetByte cfg c.1 := by
  simp only [Memory.wf, Bool.and_eq_true, List.all_eq_true, decide_eq_true_eq]

theorem Memory.wf_nil (cfg : Config) : Memory.wf cfg [] = true := rfl

/-- A write inside memory keeps the canonical form. -/
theorem Memory.wf_write {cfg : Config} {m : Memory} {a : Nat} (v : Byte) (h : Memory.wf cfg m = true)
    (ha : a < memorySize) : Memory.wf cfg (Memory.write cfg m a v) = true := by
  rw [Memory.wf_iff] at h ⊢
  have hs := Memory.sortedFrom_erase m a 0 h.1
  unfold Memory.write
  split
  · exact ⟨hs, fun c hc => h.2 c ((Memory.mem_erase m a c).1 hc).1⟩
  · refine ⟨Memory.sortedFrom_insert _ a 0 v (Nat.zero_le _) hs fun c hc => ((Memory.mem_erase m a c).1 hc).2, ?_⟩
    intro c hc
    rcases (Memory.mem_insert _ a v c).1 hc with rfl | hc
    · exact ⟨ha, ‹_›⟩
    · exact h.2 c ((Memory.mem_erase m a c).1 hc).1

/-- A block written inside memory keeps the canonical form. -/
theorem Memory.wf_writeBlock {cfg : Config} (bs : List Byte) {m : Memory} {a : Nat} (h : Memory.wf cfg m = true)
    (ha : a + bs.length ≤ memorySize) : Memory.wf cfg (Memory.writeBlock cfg m a bs) = true := by
  induction bs generalizing m a with
  | nil => exact h
  | cons v vs ih =>
    simp only [List.length_cons] at ha
    exact ih (Memory.wf_write v h (by omega)) (by omega)

theorem Memory.find_none_of_lt {lo : Nat} {m : Memory} (h : Memory.sortedFrom lo m = true) {a : Nat} (ha : a < lo) :
    Memory.find m a = none := by
  induction m generalizing lo with
  | nil => rfl
  | cons c m ih =>
    simp only [Memory.sortedFrom, Bool.and_eq_true, decide_eq_true_eq] at h
    have : c.1 ≠ a := by omega
    simpa [Memory.find, this] using ih h.2 (by omega)

end Sys2Proof.Machine
end

