-- ==== Sys2Proof/Laws/State.lean ====
section
/-!
SUPPORT. What each setter of Machine/Ops.lean does to each field and to each observer of the state: one lemma for each,
so that no later proof unfolds a record update.
-/

namespace Sys2Proof.Machine

variable (s : State)

@[simp] theorem State.setV_cfg (x : Reg) (b : Byte) : (s.setV x b).cfg = s.cfg := rfl
@[simp] theorem State.setV_v (x : Reg) (b : Byte) : (s.setV x b).v = s.v.set x.val b x.isLt := rfl
@[simp] theorem State.setV_index (x : Reg) (b : Byte) : (s.setV x b).index = s.index := rfl
@[simp] theorem State.setV_pc (x : Reg) (b : Byte) : (s.setV x b).pc = s.pc := rfl
@[simp] theorem State.setV_sp (x : Reg) (b : Byte) : (s.setV x b).sp = s.sp := rfl
@[simp] theorem State.setV_stk (x : Reg) (b : Byte) : (s.setV x b).stk = s.stk := rfl
@[simp] theorem State.setV_dt (x : Reg) (b : Byte) : (s.setV x b).dt = s.dt := rfl
@[simp] theorem State.setV_st (x : Reg) (b : Byte) : (s.setV x b).st = s.st := rfl
@[simp] theorem State.setV_fb (x : Reg) (b : Byte) : (s.setV x b).fb = s.fb := rfl
@[simp] theorem State.setV_key (x : Reg) (b : Byte) : (s.setV x b).key = s.key := rfl
@[simp] theorem State.setV_mem (x : Reg) (b : Byte) : (s.setV x b).mem = s.mem := rfl
@[simp] theorem State.setV_mode (x : Reg) (b : Byte) : (s.setV x b).mode = s.mode := rfl
@[simp] theorem State.setV_waitX (x : Reg) (b : Byte) : (s.setV x b).waitX = s.waitX := rfl
@[simp] theorem State.setV_env (x : Reg) (b : Byte) : (s.setV x b).env = s.env := rfl
@[simp] theorem State.setV_slot (x : Reg) (b : Byte) (j : Fin 16) : (s.setV x b).slot j = s.slot j := rfl
@[simp] theorem State.setV_keyDown (x : Reg) (b : Byte) (q : Key) : (s.setV x b).keyDown q = s.keyDown q := rfl
@[simp] theorem State.setV_byteAt (x : Reg) (b : Byte) (n : Nat) : (s.setV x b).byteAt n = s.byteAt n := rfl

@[simp] theorem State.setRegs_cfg (v : Vector Byte 16) : (s.setRegs v).cfg = s.cfg := rfl
@[simp] theorem State.setRegs_v (v : Vector Byte 16) : (s.setRegs v).v = v := rfl
@[simp] theorem State.setRegs_index (v : Vector Byte 16) : (s.setRegs v).index = s.index := rfl
@[simp] theorem State.setRegs_pc (v : Vector Byte 16) : (s.setRegs v).pc = s.pc := rfl
@[simp] theorem State.setRegs_sp (v : Vector Byte 16) : (s.setRegs v).sp = s.sp := rfl
@[simp] theorem State.setRegs_stk (v : Vector Byte 16) : (s.setRegs v).stk = s.stk := rfl
@[simp] theorem State.setRegs_dt (v : Vector Byte 16) : (s.setRegs v).dt = s.dt := rfl
@[simp] theorem State.setRegs_st (v : Vector Byte 16) : (s.setRegs v).st = s.st := rfl
@[simp] theorem State.setRegs_fb (v : Vector Byte 16) : (s.setRegs v).fb = s.fb := rfl
@[simp] theorem State.setRegs_key (v : Vector Byte 16) : (s.setRegs v).key = s.key := rfl
@[simp] theorem State.setRegs_mem (v : Vector Byte 16) : (s.setRegs v).mem = s.mem := rfl
@[simp] theorem State.setRegs_mode (v : Vector Byte 16) : (s.setRegs v).mode = s.mode := rfl
@[simp] theorem State.setRegs_waitX (v : Vector Byte 16) : (s.setRegs v).waitX = s.waitX := rfl
@[simp] theorem State.setRegs_env (v : Vector Byte 16) : (s.setRegs v).env = s.env := rfl
@[simp] theorem State.setRegs_slot (v : Vector Byte 16) (j : Fin 16) : (s.setRegs v).slot j = s.slot j := rfl
@[simp] theorem State.setRegs_keyDown (v : Vector Byte 16) (q : Key) : (s.setRegs v).keyDown q = s.keyDown q := rfl
@[simp] theorem State.setRegs_byteAt (v : Vector Byte 16) (n : Nat) : (s.setRegs v).byteAt n = s.byteAt n := rfl

@[simp] theorem State.setIndex_cfg (a : Addr) : (s.setIndex a).cfg = s.cfg := rfl
@[simp] theorem State.setIndex_v (a : Addr) : (s.setIndex a).v = s.v := rfl
@[simp] theorem State.setIndex_index (a : Addr) : (s.setIndex a).index = a := rfl
@[simp] theorem State.setIndex_pc (a : Addr) : (s.setIndex a).pc = s.pc := rfl
@[simp] theorem State.setIndex_sp (a : Addr) : (s.setIndex a).sp = s.sp := rfl
@[simp] theorem State.setIndex_stk (a : Addr) : (s.setIndex a).stk = s.stk := rfl
@[simp] theorem State.setIndex_dt (a : Addr) : (s.setIndex a).dt = s.dt := rfl
@[simp] theorem State.setIndex_st (a : Addr) : (s.setIndex a).st = s.st := rfl
@[simp] theorem State.setIndex_fb (a : Addr) : (s.setIndex a).fb = s.fb := rfl
@[simp] theorem State.setIndex_key (a : Addr) : (s.setIndex a).key = s.key := rfl
@[simp] theorem State.setIndex_mem (a : Addr) : (s.setIndex a).mem = s.mem := rfl
@[simp] theorem State.setIndex_mode (a : Addr) : (s.setIndex a).mode = s.mode := rfl
@[simp] theorem State.setIndex_waitX (a : Addr) : (s.setIndex a).waitX = s.waitX := rfl
@[simp] theorem State.setIndex_env (a : Addr) : (s.setIndex a).env = s.env := rfl
@[simp] theorem State.setIndex_getV (a : Addr) (r : Reg) : (s.setIndex a).getV r = s.getV r := rfl
@[simp] theorem State.setIndex_slot (a : Addr) (j : Fin 16) : (s.setIndex a).slot j = s.slot j := rfl
@[simp] theorem State.setIndex_keyDown (a : Addr) (q : Key) : (s.setIndex a).keyDown q = s.keyDown q := rfl
@[simp] theorem State.setIndex_byteAt (a : Addr) (n : Nat) : (s.setIndex a).byteAt n = s.byteAt n := rfl

@[simp] theorem State.setPc_cfg (a : Addr) : (s.setPc a).cfg = s.cfg := rfl
@[simp] theorem State.setPc_v (a : Addr) : (s.setPc a).v = s.v := rfl
@[simp] theorem State.setPc_index (a : Addr) : (s.setPc a).index = s.index := rfl
@[simp] theorem State.setPc_pc (a : Addr) : (s.setPc a).pc = a := rfl
@[simp] theorem State.setPc_sp (a : Addr) : (s.setPc a).sp = s.sp := rfl
@[simp] theorem State.setPc_stk (a : Addr) : (s.setPc a).stk = s.stk := rfl
@[simp] theorem State.setPc_dt (a : Addr) : (s.setPc a).dt = s.dt := rfl
@[simp] theorem State.setPc_st (a : Addr) : (s.setPc a).st = s.st := rfl
@[simp] theorem State.setPc_fb (a : Addr) : (s.setPc a).fb = s.fb := rfl
@[simp] theorem State.setPc_key (a : Addr) : (s.setPc a).key = s.key := rfl
@[simp] theorem State.setPc_mem (a : Addr) : (s.setPc a).mem = s.mem := rfl
@[simp] theorem State.setPc_mode (a : Addr) : (s.setPc a).mode = s.mode := rfl
@[simp] theorem State.setPc_waitX (a : Addr) : (s.setPc a).waitX = s.waitX := rfl
@[simp] theorem State.setPc_env (a : Addr) : (s.setPc a).env = s.env := rfl
@[simp] theorem State.setPc_getV (a : Addr) (r : Reg) : (s.setPc a).getV r = s.getV r := rfl
@[simp] theorem State.setPc_slot (a : Addr) (j : Fin 16) : (s.setPc a).slot j = s.slot j := rfl
@[simp] theorem State.setPc_keyDown (a : Addr) (q : Key) : (s.setPc a).keyDown q = s.keyDown q := rfl
@[simp] theorem State.setPc_byteAt (a : Addr) (n : Nat) : (s.setPc a).byteAt n = s.byteAt n := rfl

@[simp] theorem State.setStack_cfg (p : Fin 17) (k : Vector Addr 16) : (s.setStack p k).cfg = s.cfg := rfl
@[simp] theorem State.setStack_v (p : Fin 17) (k : Vector Addr 16) : (s.setStack p k).v = s.v := rfl
@[simp] theorem State.setStack_index (p : Fin 17) (k : Vector Addr 16) : (s.setStack p k).index = s.index := rfl
@[simp] theorem State.setStack_pc (p : Fin 17) (k : Vector Addr 16) : (s.setStack p k).pc = s.pc := rfl
@[simp] theorem State.setStack_sp (p : Fin 17) (k : Vector Addr 16) : (s.setStack p k).sp = p := rfl
@[simp] theorem State.setStack_stk (p : Fin 17) (k : Vector Addr 16) : (s.setStack p k).stk = k := rfl
@[simp] theorem State.setStack_dt (p : Fin 17) (k : Vector Addr 16) : (s.setStack p k).dt = s.dt := rfl
@[simp] theorem State.setStack_st (p : Fin 17) (k : Vector Addr 16) : (s.setStack p k).st = s.st := rfl
@[simp] theorem State.setStack_fb (p : Fin 17) (k : Vector Addr 16) : (s.setStack p k).fb = s.fb := rfl
@[simp] theorem State.setStack_key (p : Fin 17) (k : Vector Addr 16) : (s.setStack p k).key = s.key := rfl
@[simp] theorem State.setStack_mem (p : Fin 17) (k : Vector Addr 16) : (s.setStack p k).mem = s.mem := rfl
@[simp] theorem State.setStack_mode (p : Fin 17) (k : Vector Addr 16) : (s.setStack p k).mode = s.mode := rfl
@[simp] theorem State.setStack_waitX (p : Fin 17) (k : Vector Addr 16) : (s.setStack p k).waitX = s.waitX := rfl
@[simp] theorem State.setStack_env (p : Fin 17) (k : Vector Addr 16) : (s.setStack p k).env = s.env := rfl
@[simp] theorem State.setStack_getV (p : Fin 17) (k : Vector Addr 16) (r : Reg) : (s.setStack p k).getV r = s.getV r := rfl
@[simp] theorem State.setStack_keyDown (p : Fin 17) (k : Vector Addr 16) (q : Key) : (s.setStack p k).keyDown q = s.keyDown q := rfl
@[simp] theorem State.setStack_byteAt (p : Fin 17) (k : Vector Addr 16) (n : Nat) : (s.setStack p k).byteAt n = s.byteAt n := rfl

@[simp] theorem State.setDelay_cfg (b : Byte) : (s.setDelay b).cfg = s.cfg := rfl
@[simp] theorem State.setDelay_v (b : Byte) : (s.setDelay b).v = s.v := rfl
@[simp] theorem State.setDelay_index (b : Byte) : (s.setDelay b).index = s.index := rfl
@[simp] theorem State.setDelay_pc (b : Byte) : (s.setDelay b).pc = s.pc := rfl
@[simp] theorem State.setDelay_sp (b : Byte) : (s.setDelay b).sp = s.sp := rfl
@[simp] theorem State.setDelay_stk (b : Byte) : (s.setDelay b).stk = s.stk := rfl
@[simp] theorem State.setDelay_dt (b : Byte) : (s.setDelay b).dt = b := rfl
@[simp] theorem State.setDelay_st (b : Byte) : (s.setDelay b).st = s.st := rfl
@[simp] theorem State.setDelay_fb (b : Byte) : (s.setDelay b).fb = s.fb := rfl
@[simp] theorem State.setDelay_key (b : Byte) : (s.setDelay b).key = s.key := rfl
@[simp] theorem State.setDelay_mem (b : Byte) : (s.setDelay b).mem = s.mem := rfl
@[simp] theorem State.setDelay_mode (b : Byte) : (s.setDelay b).mode = s.mode := rfl
@[simp] theorem State.setDelay_waitX (b : Byte) : (s.setDelay b).waitX = s.waitX := rfl
@[simp] theorem State.setDelay_env (b : Byte) : (s.setDelay b).env = s.env := rfl
@[simp] theorem State.setDelay_getV (b : Byte) (r : Reg) : (s.setDelay b).getV r = s.getV r := rfl
@[simp] theorem State.setDelay_slot (b : Byte) (j : Fin 16) : (s.setDelay b).slot j = s.slot j := rfl
@[simp] theorem State.setDelay_keyDown (b : Byte) (q : Key) : (s.setDelay b).keyDown q = s.keyDown q := rfl
@[simp] theorem State.setDelay_byteAt (b : Byte) (n : Nat) : (s.setDelay b).byteAt n = s.byteAt n := rfl

@[simp] theorem State.setSound_cfg (b : Byte) : (s.setSound b).cfg = s.cfg := rfl
@[simp] theorem State.setSound_v (b : Byte) : (s.setSound b).v = s.v := rfl
@[simp] theorem State.setSound_index (b : Byte) : (s.setSound b).index = s.index := rfl
@[simp] theorem State.setSound_pc (b : Byte) : (s.setSound b).pc = s.pc := rfl
@[simp] theorem State.setSound_sp (b : Byte) : (s.setSound b).sp = s.sp := rfl
@[simp] theorem State.setSound_stk (b : Byte) : (s.setSound b).stk = s.stk := rfl
@[simp] theorem State.setSound_dt (b : Byte) : (s.setSound b).dt = s.dt := rfl
@[simp] theorem State.setSound_st (b : Byte) : (s.setSound b).st = b := rfl
@[simp] theorem State.setSound_fb (b : Byte) : (s.setSound b).fb = s.fb := rfl
@[simp] theorem State.setSound_key (b : Byte) : (s.setSound b).key = s.key := rfl
@[simp] theorem State.setSound_mem (b : Byte) : (s.setSound b).mem = s.mem := rfl
@[simp] theorem State.setSound_mode (b : Byte) : (s.setSound b).mode = s.mode := rfl
@[simp] theorem State.setSound_waitX (b : Byte) : (s.setSound b).waitX = s.waitX := rfl
@[simp] theorem State.setSound_env (b : Byte) : (s.setSound b).env = s.env := rfl
@[simp] theorem State.setSound_getV (b : Byte) (r : Reg) : (s.setSound b).getV r = s.getV r := rfl
@[simp] theorem State.setSound_slot (b : Byte) (j : Fin 16) : (s.setSound b).slot j = s.slot j := rfl
@[simp] theorem State.setSound_keyDown (b : Byte) (q : Key) : (s.setSound b).keyDown q = s.keyDown q := rfl
@[simp] theorem State.setSound_byteAt (b : Byte) (n : Nat) : (s.setSound b).byteAt n = s.byteAt n := rfl

@[simp] theorem State.setFb_cfg (f : Framebuffer) : (s.setFb f).cfg = s.cfg := rfl
@[simp] theorem State.setFb_v (f : Framebuffer) : (s.setFb f).v = s.v := rfl
@[simp] theorem State.setFb_index (f : Framebuffer) : (s.setFb f).index = s.index := rfl
@[simp] theorem State.setFb_pc (f : Framebuffer) : (s.setFb f).pc = s.pc := rfl
@[simp] theorem State.setFb_sp (f : Framebuffer) : (s.setFb f).sp = s.sp := rfl
@[simp] theorem State.setFb_stk (f : Framebuffer) : (s.setFb f).stk = s.stk := rfl
@[simp] theorem State.setFb_dt (f : Framebuffer) : (s.setFb f).dt = s.dt := rfl
@[simp] theorem State.setFb_st (f : Framebuffer) : (s.setFb f).st = s.st := rfl
@[simp] theorem State.setFb_fb (f : Framebuffer) : (s.setFb f).fb = f := rfl
@[simp] theorem State.setFb_key (f : Framebuffer) : (s.setFb f).key = s.key := rfl
@[simp] theorem State.setFb_mem (f : Framebuffer) : (s.setFb f).mem = s.mem := rfl
@[simp] theorem State.setFb_mode (f : Framebuffer) : (s.setFb f).mode = s.mode := rfl
@[simp] theorem State.setFb_waitX (f : Framebuffer) : (s.setFb f).waitX = s.waitX := rfl
@[simp] theorem State.setFb_env (f : Framebuffer) : (s.setFb f).env = s.env := rfl
@[simp] theorem State.setFb_getV (f : Framebuffer) (r : Reg) : (s.setFb f).getV r = s.getV r := rfl
@[simp] theorem State.setFb_slot (f : Framebuffer) (j : Fin 16) : (s.setFb f).slot j = s.slot j := rfl
@[simp] theorem State.setFb_keyDown (f : Framebuffer) (q : Key) : (s.setFb f).keyDown q = s.keyDown q := rfl
@[simp] theorem State.setFb_byteAt (f : Framebuffer) (n : Nat) : (s.setFb f).byteAt n = s.byteAt n := rfl

@[simp] theorem State.setKeyFlag_cfg (k : Key) (b : Bool) : (s.setKeyFlag k b).cfg = s.cfg := rfl
@[simp] theorem State.setKeyFlag_v (k : Key) (b : Bool) : (s.setKeyFlag k b).v = s.v := rfl
@[simp] theorem State.setKeyFlag_index (k : Key) (b : Bool) : (s.setKeyFlag k b).index = s.index := rfl
@[simp] theorem State.setKeyFlag_pc (k : Key) (b : Bool) : (s.setKeyFlag k b).pc = s.pc := rfl
@[simp] theorem State.setKeyFlag_sp (k : Key) (b : Bool) : (s.setKeyFlag k b).sp = s.sp := rfl
@[simp] theorem State.setKeyFlag_stk (k : Key) (b : Bool) : (s.setKeyFlag k b).stk = s.stk := rfl
@[simp] theorem State.setKeyFlag_dt (k : Key) (b : Bool) : (s.setKeyFlag k b).dt = s.dt := rfl
@[simp] theorem State.setKeyFlag_st (k : Key) (b : Bool) : (s.setKeyFlag k b).st = s.st := rfl
@[simp] theorem State.setKeyFlag_fb (k : Key) (b : Bool) : (s.setKeyFlag k b).fb = s.fb := rfl
@[simp] theorem State.setKeyFlag_key (k : Key) (b : Bool) : (s.setKeyFlag k b).key = s.key.set k.val b k.isLt := rfl
@[simp] theorem State.setKeyFlag_mem (k : Key) (b : Bool) : (s.setKeyFlag k b).mem = s.mem := rfl
@[simp] theorem State.setKeyFlag_mode (k : Key) (b : Bool) : (s.setKeyFlag k b).mode = s.mode := rfl
@[simp] theorem State.setKeyFlag_waitX (k : Key) (b : Bool) : (s.setKeyFlag k b).waitX = s.waitX := rfl
@[simp] theorem State.setKeyFlag_env (k : Key) (b : Bool) : (s.setKeyFlag k b).env = s.env := rfl
@[simp] theorem State.setKeyFlag_getV (k : Key) (b : Bool) (r : Reg) : (s.setKeyFlag k b).getV r = s.getV r := rfl
@[simp] theorem State.setKeyFlag_slot (k : Key) (b : Bool) (j : Fin 16) : (s.setKeyFlag k b).slot j = s.slot j := rfl
@[simp] theorem State.setKeyFlag_byteAt (k : Key) (b : Bool) (n : Nat) : (s.setKeyFlag k b).byteAt n = s.byteAt n := rfl

@[simp] theorem State.setMem_cfg (m : Memory) : (s.setMem m).cfg = s.cfg := rfl
@[simp] theorem State.setMem_v (m : Memory) : (s.setMem m).v = s.v := rfl
@[simp] theorem State.setMem_index (m : Memory) : (s.setMem m).index = s.index := rfl
@[simp] theorem State.setMem_pc (m : Memory) : (s.setMem m).pc = s.pc := rfl
@[simp] theorem State.setMem_sp (m : Memory) : (s.setMem m).sp = s.sp := rfl
@[simp] theorem State.setMem_stk (m : Memory) : (s.setMem m).stk = s.stk := rfl
@[simp] theorem State.setMem_dt (m : Memory) : (s.setMem m).dt = s.dt := rfl
@[simp] theorem State.setMem_st (m : Memory) : (s.setMem m).st = s.st := rfl
@[simp] theorem State.setMem_fb (m : Memory) : (s.setMem m).fb = s.fb := rfl
@[simp] theorem State.setMem_key (m : Memory) : (s.setMem m).key = s.key := rfl
@[simp] theorem State.setMem_mem (m : Memory) : (s.setMem m).mem = m := rfl
@[simp] theorem State.setMem_mode (m : Memory) : (s.setMem m).mode = s.mode := rfl
@[simp] theorem State.setMem_waitX (m : Memory) : (s.setMem m).waitX = s.waitX := rfl
@[simp] theorem State.setMem_env (m : Memory) : (s.setMem m).env = s.env := rfl
@[simp] theorem State.setMem_getV (m : Memory) (r : Reg) : (s.setMem m).getV r = s.getV r := rfl
@[simp] theorem State.setMem_slot (m : Memory) (j : Fin 16) : (s.setMem m).slot j = s.slot j := rfl
@[simp] theorem State.setMem_keyDown (m : Memory) (q : Key) : (s.setMem m).keyDown q = s.keyDown q := rfl

@[simp] theorem State.setMode_cfg (m : Mode) : (s.setMode m).cfg = s.cfg := rfl
@[simp] theorem State.setMode_v (m : Mode) : (s.setMode m).v = s.v := rfl
@[simp] theorem State.setMode_index (m : Mode) : (s.setMode m).index = s.index := rfl
@[simp] theorem State.setMode_pc (m : Mode) : (s.setMode m).pc = s.pc := rfl
@[simp] theorem State.setMode_sp (m : Mode) : (s.setMode m).sp = s.sp := rfl
@[simp] theorem State.setMode_stk (m : Mode) : (s.setMode m).stk = s.stk := rfl
@[simp] theorem State.setMode_dt (m : Mode) : (s.setMode m).dt = s.dt := rfl
@[simp] theorem State.setMode_st (m : Mode) : (s.setMode m).st = s.st := rfl
@[simp] theorem State.setMode_fb (m : Mode) : (s.setMode m).fb = s.fb := rfl
@[simp] theorem State.setMode_key (m : Mode) : (s.setMode m).key = s.key := rfl
@[simp] theorem State.setMode_mem (m : Mode) : (s.setMode m).mem = s.mem := rfl
@[simp] theorem State.setMode_mode (m : Mode) : (s.setMode m).mode = m := rfl
@[simp] theorem State.setMode_waitX (m : Mode) : (s.setMode m).waitX = s.waitX := rfl
@[simp] theorem State.setMode_env (m : Mode) : (s.setMode m).env = s.env := rfl
@[simp] theorem State.setMode_getV (m : Mode) (r : Reg) : (s.setMode m).getV r = s.getV r := rfl
@[simp] theorem State.setMode_slot (m : Mode) (j : Fin 16) : (s.setMode m).slot j = s.slot j := rfl
@[simp] theorem State.setMode_keyDown (m : Mode) (q : Key) : (s.setMode m).keyDown q = s.keyDown q := rfl
@[simp] theorem State.setMode_byteAt (m : Mode) (n : Nat) : (s.setMode m).byteAt n = s.byteAt n := rfl

@[simp] theorem State.setWaitX_cfg (x : Reg) : (s.setWaitX x).cfg = s.cfg := rfl
@[simp] theorem State.setWaitX_v (x : Reg) : (s.setWaitX x).v = s.v := rfl
@[simp] theorem State.setWaitX_index (x : Reg) : (s.setWaitX x).index = s.index := rfl
@[simp] theorem State.setWaitX_pc (x : Reg) : (s.setWaitX x).pc = s.pc := rfl
@[simp] theorem State.setWaitX_sp (x : Reg) : (s.setWaitX x).sp = s.sp := rfl
@[simp] theorem State.setWaitX_stk (x : Reg) : (s.setWaitX x).stk = s.stk := rfl
@[simp] theorem State.setWaitX_dt (x : Reg) : (s.setWaitX x).dt = s.dt := rfl
@[simp] theorem State.setWaitX_st (x : Reg) : (s.setWaitX x).st = s.st := rfl
@[simp] theorem State.setWaitX_fb (x : Reg) : (s.setWaitX x).fb = s.fb := rfl
@[simp] theorem State.setWaitX_key (x : Reg) : (s.setWaitX x).key = s.key := rfl
@[simp] theorem State.setWaitX_mem (x : Reg) : (s.setWaitX x).mem = s.mem := rfl
@[simp] theorem State.setWaitX_mode (x : Reg) : (s.setWaitX x).mode = s.mode := rfl
@[simp] theorem State.setWaitX_waitX (x : Reg) : (s.setWaitX x).waitX = x := rfl
@[simp] theorem State.setWaitX_env (x : Reg) : (s.setWaitX x).env = s.env := rfl
@[simp] theorem State.setWaitX_getV (x : Reg) (r : Reg) : (s.setWaitX x).getV r = s.getV r := rfl
@[simp] theorem State.setWaitX_slot (x : Reg) (j : Fin 16) : (s.setWaitX x).slot j = s.slot j := rfl
@[simp] theorem State.setWaitX_keyDown (x : Reg) (q : Key) : (s.setWaitX x).keyDown q = s.keyDown q := rfl
@[simp] theorem State.setWaitX_byteAt (x : Reg) (n : Nat) : (s.setWaitX x).byteAt n = s.byteAt n := rfl

@[simp] theorem State.setEnv_cfg (e : Env) : (s.setEnv e).cfg = s.cfg := rfl
@[simp] theorem State.setEnv_v (e : Env) : (s.setEnv e).v = s.v := rfl
@[simp] theorem State.setEnv_index (e : Env) : (s.setEnv e).index = s.index := rfl
@[simp] theorem State.setEnv_pc (e : Env) : (s.setEnv e).pc = s.pc := rfl
@[simp] theorem State.setEnv_sp (e : Env) : (s.setEnv e).sp = s.sp := rfl
@[simp] theorem State.setEnv_stk (e : Env) : (s.setEnv e).stk = s.stk := rfl
@[simp] theorem State.setEnv_dt (e : Env) : (s.setEnv e).dt = s.dt := rfl
@[simp] theorem State.setEnv_st (e : Env) : (s.setEnv e).st = s.st := rfl
@[simp] theorem State.setEnv_fb (e : Env) : (s.setEnv e).fb = s.fb := rfl
@[simp] theorem State.setEnv_key (e : Env) : (s.setEnv e).key = s.key := rfl
@[simp] theorem State.setEnv_mem (e : Env) : (s.setEnv e).mem = s.mem := rfl
@[simp] theorem State.setEnv_mode (e : Env) : (s.setEnv e).mode = s.mode := rfl
@[simp] theorem State.setEnv_waitX (e : Env) : (s.setEnv e).waitX = s.waitX := rfl
@[simp] theorem State.setEnv_env (e : Env) : (s.setEnv e).env = e := rfl
@[simp] theorem State.setEnv_getV (e : Env) (r : Reg) : (s.setEnv e).getV r = s.getV r := rfl
@[simp] theorem State.setEnv_slot (e : Env) (j : Fin 16) : (s.setEnv e).slot j = s.slot j := rfl
@[simp] theorem State.setEnv_keyDown (e : Env) (q : Key) : (s.setEnv e).keyDown q = s.keyDown q := rfl
@[simp] theorem State.setEnv_byteAt (e : Env) (n : Nat) : (s.setEnv e).byteAt n = s.byteAt n := rfl

@[simp] theorem State.resetWith_cfg (c : Config) (e : Env) : (State.resetWith c e).cfg = c := rfl
@[simp] theorem State.resetWith_v (c : Config) (e : Env) : (State.resetWith c e).v = Vector.replicate 16 0 := rfl
@[simp] theorem State.resetWith_index (c : Config) (e : Env) : (State.resetWith c e).index = 0 := rfl
@[simp] theorem State.resetWith_pc (c : Config) (e : Env) : (State.resetWith c e).pc = 0x200 := rfl
@[simp] theorem State.resetWith_sp (c : Config) (e : Env) : (State.resetWith c e).sp = 0 := rfl
@[simp] theorem State.resetWith_stk (c : Config) (e : Env) : (State.resetWith c e).stk = Vector.replicate 16 0 := rfl
@[simp] theorem State.resetWith_dt (c : Config) (e : Env) : (State.resetWith c e).dt = 0 := rfl
@[simp] theorem State.resetWith_st (c : Config) (e : Env) : (State.resetWith c e).st = 0 := rfl
@[simp] theorem State.resetWith_fb (c : Config) (e : Env) : (State.resetWith c e).fb = Vector.replicate 32 (Vector.replicate 64 false) := rfl
@[simp] theorem State.resetWith_key (c : Config) (e : Env) : (State.resetWith c e).key = Vector.replicate 16 false := rfl
@[simp] theorem State.resetWith_mem (c : Config) (e : Env) : (State.resetWith c e).mem = [] := rfl
@[simp] theorem State.resetWith_mode (c : Config) (e : Env) : (State.resetWith c e).mode = .running := rfl
@[simp] theorem State.resetWith_waitX (c : Config) (e : Env) : (State.resetWith c e).waitX = 0 := rfl
@[simp] theorem State.resetWith_env (c : Config) (e : Env) : (State.resetWith c e).env = e := rfl

@[simp] theorem State.getV_setV (x r : Reg) (b : Byte) : (s.setV x b).getV r = if r = x then b else s.getV r := by
  simp only [State.getV, State.setV, Vector.get_eq_getElem, Vector.getElem_set, Fin.ext_iff, eq_comm]

@[simp] theorem State.getV_setRegs (v : Vector Byte 16) (r : Reg) : (s.setRegs v).getV r = v.get r := rfl

@[simp] theorem State.slot_setStack (p : Fin 17) (k : Vector Addr 16) (j : Fin 16) :
    (s.setStack p k).slot j = k.get j := rfl

@[simp] theorem State.keyDown_setKeyFlag (k q : Key) (b : Bool) :
    (s.setKeyFlag k b).keyDown q = if q = k then b else s.keyDown q := by
  simp only [State.keyDown, State.setKeyFlag, Vector.get_eq_getElem, Vector.getElem_set, Fin.ext_iff, eq_comm]

@[simp] theorem State.byteAt_setMem (m : Memory) (n : Nat) : (s.setMem m).byteAt n = Memory.read s.cfg m n := rfl

theorem State.byteAt_def (n : Nat) : s.byteAt n = Memory.read s.cfg s.mem n := rfl

@[simp] theorem State.advance_def : s.advance = s.setPc (s.pc + 2) := rfl

@[simp] theorem State.skipIf_def (c : Bool) : s.skipIf c = s.setPc (if c then s.pc + 4 else s.pc + 2) := rfl

@[simp] theorem State.storeBytes_def (a : Nat) (bs : List Byte) :
    s.storeBytes a bs = s.setMem (Memory.writeBlock s.cfg s.mem a bs) := rfl

/-- Setting every field to itself changes nothing: two states with the same fields are one. -/
theorem State.setEnv_self : s.setEnv s.env = s := rfl

@[simp] theorem State.setEnv_setEnv (e e' : Env) : (s.setEnv e).setEnv e' = s.setEnv e' := rfl

end Sys2Proof.Machine
end

