-- ==== Sys2Proof/Laws/Ops.lean ====
section
/-!
SUPPORT. One lemma for each shared operation of Machine/Ops.lean, Machine/Operands.lean and Machine/Flags.lean: everything it can do.
-/

namespace Sys2Proof.Machine

variable {s t : State}

/-- A push that succeeds found a free slot, wrote it and counted it. -/
theorem State.push_eq_some {a : Addr} (h : s.push a = some t) :
    ∃ hs : s.sp.val < 16,
      t = s.setStack ⟨s.sp.val + 1, Nat.succ_lt_succ hs⟩ (s.stk.set s.sp.val a hs) := by
  unfold State.push at h
  split at h
  · exact ⟨‹_›, (Option.some.inj h).symm⟩
  · cases h

/-- A push fails exactly when 16 addresses are held. -/
theorem State.push_eq_none {a : Addr} : s.push a = none ↔ s.sp = 16 := by
  unfold State.push
  have hm : (16 : Fin 17).val = 16 := rfl
  split <;> simp only [Fin.ext_iff, reduceCtorEq, false_iff, true_iff, hm] <;> omega

/-- A pop that succeeds found an address, returned the top one and left every slot. -/
theorem State.pop_eq_some {p : Addr × State} (h : s.pop = some p) :
    ∃ hs : 0 < s.sp.val, p = (s.slot ⟨s.sp.val - 1, by omega⟩, s.setStack ⟨s.sp.val - 1, by omega⟩ s.stk) := by
  unfold State.pop at h
  split at h
  · exact ⟨‹_›, (Option.some.inj h).symm⟩
  · cases h

/-- A pop fails exactly when no address is held. -/
theorem State.pop_eq_none : s.pop = none ↔ s.sp = 0 := by
  unfold State.pop
  split <;> simp only [Fin.ext_iff, reduceCtorEq, false_iff, true_iff, Fin.val_zero] <;> omega

/-- `MemRead` answers the byte of an address inside memory and nothing else. -/
theorem State.memRead_eq_some {a : Nat} {b : Byte} : s.memRead a = some b ↔ a ≤ 0xFFF ∧ s.byteAt a = b := by
  unfold State.memRead
  split <;> simp [*]

/-- `MemWrite` answers the state with one byte stored, for an address inside memory. -/
theorem State.memWrite_eq_some {a : Nat} {b : Byte} :
    s.memWrite a b = some t ↔ a ≤ 0xFFF ∧ s.setMem (Memory.write s.cfg s.mem a b) = t := by
  unfold State.memWrite
  split <;> simp [*]

/-- What every address holds after a block of bytes is stored. -/
theorem State.byteAt_storeBytes (s : State) (a n : Nat) (bs : List Byte) :
    (s.storeBytes a bs).byteAt n = if h : a ≤ n ∧ n - a < bs.length then bs[n - a]'h.2 else s.byteAt n :=
  Memory.read_writeBlock s.cfg bs s.mem a n

/-- The fetch answers the two bytes at `PC`, big-endian, unless `PC` is the last address. -/
theorem State.fetch_eq (s : State) : s.fetch =
    if s.pc = 0xFFF#12 then none
    else some (wordOfBytes (s.byteAt s.pc.toNat) (s.byteAt (s.pc.toNat + 1))) := by
  have hp := s.pc.isLt
  unfold State.fetch State.memRead
  by_cases h : s.pc = 0xFFF#12
  · simp [h]
  · have hne : s.pc.toNat ≠ 0xFFF := fun e => h (BitVec.eq_of_toNat_eq e)
    have h1 : s.pc.toNat ≤ 4095 := by omega
    have h2 : s.pc.toNat + 1 ≤ 4095 := by omega
    rw [if_pos h1, if_pos h2, if_neg h]

/-- The step of the index after a dump or load (42_index_memory R106, R107). -/
theorem State.bumpIndex_eq (s : State) (x : Reg) : s.bumpIndex x =
    s.setIndex (if s.cfg.loadStoreIncrementsI then s.index + BitVec.ofNat 12 (x.val + 1) else s.index) := by
  unfold State.bumpIndex
  split <;> rfl

/-- The registers after an instruction with a flag: the result where it goes, the flag in `VF` unless the result went
there. -/
theorem State.getV_storeFlagged (s : State) (x r : Reg) (f : Bool) (b : Byte) :
    (s.storeFlagged x f b).getV r = if r = x then b else if r = vf then flagByte f else s.getV r := by
  simp [State.storeFlagged]

/-- The bytes of a dump: byte `j` is `V[j]`. -/
theorem State.regsUpTo_length (s : State) (x : Reg) : (s.regsUpTo x).length = x.val + 1 := by
  have := x.isLt
  simp only [State.regsUpTo, List.length_take, Vector.length_toList]
  omega

theorem State.regsUpTo_getElem (s : State) (x : Reg) (j : Nat) (h : j < (s.regsUpTo x).length) :
    (s.regsUpTo x)[j] = s.getV ⟨j, by rw [State.regsUpTo_length] at h; omega⟩ := by
  simp [State.regsUpTo, State.getV, Vector.get_eq_getElem]

/-- The registers after a load. -/
theorem State.regsLoaded_get (s : State) (x r : Reg) :
    (s.regsLoaded x).get r = if r.val ≤ x.val then s.byteAt (s.blockAddr r.val) else s.getV r := by
  simp [State.regsLoaded, Vector.get_eq_getElem]

/-- The bytes of a block read. -/
theorem State.bytesAtIndex_length (s : State) (n : Nat) : (s.bytesAtIndex n).length = n := by
  simp [State.bytesAtIndex]

theorem State.bytesAtIndex_getElem (s : State) (n j : Nat) (h : j < (s.bytesAtIndex n).length) :
    (s.bytesAtIndex n)[j] = s.byteAt (s.blockAddr j) := by
  simp [State.bytesAtIndex]

/-- Every error is the fault with the record of 60_exceptions R131. -/
theorem raise_def (kind : ErrorRecord → Fault) (word : Option InstrWord) (addr : Option Nat) (s : State) :
    raise kind word addr s = .fault (kind ⟨word, s.pc, addr⟩) := rfl

end Sys2Proof.Machine
end

