-- ==== Sys2Proof/Laws/PerInstr.lean ====
section
/-!
SUPPORT. Per instruction: the word of an instruction is one of its own row of the opcode table (30_encoding R65, R66).
-/

namespace Sys2Proof

theorem and_ones4 (a : BitVec 4) : a &&& 0xF#4 = a := BitVec.and_allOnes

theorem and_ones8 (a : BitVec 8) : a &&& 0xFF#8 = a := BitVec.and_allOnes

theorem wordA_and_classMask (op : BitVec 4) (nnn : Addr) : wordA op nnn &&& 0xF000#16 = op ++ 0x000#12 := by
  rw [show 0xF000#16 = 0xF#4 ++ 0x000#12 from rfl, wordA, BitVec.and_append]
  simp [and_ones4]

theorem wordXB_and_classMask (op : BitVec 4) (x : Reg) (nn : Byte) :
    wordXB op x nn &&& 0xF000#16 = op ++ 0x0#4 ++ 0x00#8 := by
  rw [show 0xF000#16 = 0xF#4 ++ 0x0#4 ++ 0x00#8 from rfl, wordXB, BitVec.and_append, BitVec.and_append]
  simp [and_ones4]

theorem wordXB_and_subMask (op : BitVec 4) (x : Reg) (nn : Byte) :
    wordXB op x nn &&& 0xF0FF#16 = op ++ 0x0#4 ++ nn := by
  rw [show 0xF0FF#16 = 0xF#4 ++ 0x0#4 ++ 0xFF#8 from rfl, wordXB, BitVec.and_append, BitVec.and_append]
  simp [and_ones4, and_ones8]

theorem wordXYN_and_classMask (op : BitVec 4) (x y : Reg) (n : BitVec 4) :
    wordXYN op x y n &&& 0xF000#16 = op ++ 0x0#4 ++ 0x0#4 ++ 0x0#4 := by
  rw [show 0xF000#16 = 0xF#4 ++ 0x0#4 ++ 0x0#4 ++ 0x0#4 from rfl, wordXYN, BitVec.and_append, BitVec.and_append,
    BitVec.and_append]
  simp [and_ones4]

theorem wordXYN_and_subMask (op : BitVec 4) (x y : Reg) (n : BitVec 4) :
    wordXYN op x y n &&& 0xF00F#16 = op ++ 0x0#4 ++ 0x0#4 ++ n := by
  rw [show 0xF00F#16 = 0xF#4 ++ 0x0#4 ++ 0x0#4 ++ 0xF#4 from rfl, wordXYN, BitVec.and_append, BitVec.and_append,
    BitVec.and_append]
  simp [and_ones4]

namespace Laws.InRow

/-- The instruction's word matches the table row that has its name and format. -/
def Statement (i : Instr) : Prop :=
  ∃ r ∈ opcodeTable, r.mnemonic = i.mnemonic ∧ r.format = i.format ∧ r.matchesWord (encode i) = true

/-- To show it: name the row by its place, and check its mask on the instruction's word. -/
theorem of_row {i : Instr} (k : Nat) (hk : k < opcodeTable.length) (hm : opcodeTable[k].mnemonic = i.mnemonic)
    (hf : opcodeTable[k].format = i.format) (hw : encode i &&& opcodeTable[k].mask = opcodeTable[k].fixed) :
    Statement i :=
  ⟨opcodeTable[k], List.getElem_mem hk, hm, hf, by simp only [OpcodeRow.matchesWord, hw, decide_true]⟩

theorem cls : Statement (.cls) := of_row 0 (by decide) rfl rfl rfl
theorem ret : Statement (.ret) := of_row 1 (by decide) rfl rfl rfl
theorem jp (nnn : Addr) : Statement (.jp nnn) := of_row 2 (by decide) rfl rfl (wordA_and_classMask _ _)
theorem call (nnn : Addr) : Statement (.call nnn) := of_row 3 (by decide) rfl rfl (wordA_and_classMask _ _)
theorem seImm (x : Reg) (nn : Byte) : Statement (.seImm x nn) := of_row 4 (by decide) rfl rfl (wordXB_and_classMask _ _ _)
theorem sneImm (x : Reg) (nn : Byte) : Statement (.sneImm x nn) := of_row 5 (by decide) rfl rfl (wordXB_and_classMask _ _ _)
theorem seReg (x y : Reg) : Statement (.seReg x y) := of_row 6 (by decide) rfl rfl (wordXYN_and_subMask _ _ _ _)
theorem sneReg (x y : Reg) : Statement (.sneReg x y) := of_row 7 (by decide) rfl rfl (wordXYN_and_subMask _ _ _ _)
theorem jpV0 (nnn : Addr) : Statement (.jpV0 nnn) := of_row 8 (by decide) rfl rfl (wordA_and_classMask _ _)
theorem ldImm (x : Reg) (nn : Byte) : Statement (.ldImm x nn) := of_row 9 (by decide) rfl rfl (wordXB_and_classMask _ _ _)
theorem addImm (x : Reg) (nn : Byte) : Statement (.addImm x nn) := of_row 10 (by decide) rfl rfl (wordXB_and_classMask _ _ _)
theorem ldReg (x y : Reg) : Statement (.ldReg x y) := of_row 11 (by decide) rfl rfl (wordXYN_and_subMask _ _ _ _)
theorem orReg (x y : Reg) : Statement (.orReg x y) := of_row 12 (by decide) rfl rfl (wordXYN_and_subMask _ _ _ _)
theorem andReg (x y : Reg) : Statement (.andReg x y) := of_row 13 (by decide) rfl rfl (wordXYN_and_subMask _ _ _ _)
theorem xorReg (x y : Reg) : Statement (.xorReg x y) := of_row 14 (by decide) rfl rfl (wordXYN_and_subMask _ _ _ _)
theorem addReg (x y : Reg) : Statement (.addReg x y) := of_row 15 (by decide) rfl rfl (wordXYN_and_subMask _ _ _ _)
theorem subReg (x y : Reg) : Statement (.subReg x y) := of_row 16 (by decide) rfl rfl (wordXYN_and_subMask _ _ _ _)
theorem shr (x y : Reg) : Statement (.shr x y) := of_row 17 (by decide) rfl rfl (wordXYN_and_subMask _ _ _ _)
theorem subn (x y : Reg) : Statement (.subn x y) := of_row 18 (by decide) rfl rfl (wordXYN_and_subMask _ _ _ _)
theorem shl (x y : Reg) : Statement (.shl x y) := of_row 19 (by decide) rfl rfl (wordXYN_and_subMask _ _ _ _)
theorem ldI (nnn : Addr) : Statement (.ldI nnn) := of_row 20 (by decide) rfl rfl (wordA_and_classMask _ _)
theorem addI (x : Reg) : Statement (.addI x) := of_row 21 (by decide) rfl rfl (wordXB_and_subMask _ _ _)
theorem ldF (x : Reg) : Statement (.ldF x) := of_row 22 (by decide) rfl rfl (wordXB_and_subMask _ _ _)
theorem ldB (x : Reg) : Statement (.ldB x) := of_row 23 (by decide) rfl rfl (wordXB_and_subMask _ _ _)
theorem ldMemV (x : Reg) : Statement (.ldMemV x) := of_row 24 (by decide) rfl rfl (wordXB_and_subMask _ _ _)
theorem ldVMem (x : Reg) : Statement (.ldVMem x) := of_row 25 (by decide) rfl rfl (wordXB_and_subMask _ _ _)
theorem rnd (x : Reg) (nn : Byte) : Statement (.rnd x nn) := of_row 26 (by decide) rfl rfl (wordXB_and_classMask _ _ _)
theorem drw (x y : Reg) (n : Nat) : Statement (.drw x y n) := of_row 27 (by decide) rfl rfl (wordXYN_and_classMask _ _ _ _)
theorem skp (x : Reg) : Statement (.skp x) := of_row 28 (by decide) rfl rfl (wordXB_and_subMask _ _ _)
theorem sknp (x : Reg) : Statement (.sknp x) := of_row 29 (by decide) rfl rfl (wordXB_and_subMask _ _ _)
theorem ldVK (x : Reg) : Statement (.ldVK x) := of_row 30 (by decide) rfl rfl (wordXB_and_subMask _ _ _)
theorem ldVDt (x : Reg) : Statement (.ldVDt x) := of_row 31 (by decide) rfl rfl (wordXB_and_subMask _ _ _)
theorem ldDtV (x : Reg) : Statement (.ldDtV x) := of_row 32 (by decide) rfl rfl (wordXB_and_subMask _ _ _)
theorem ldStV (x : Reg) : Statement (.ldStV x) := of_row 33 (by decide) rfl rfl (wordXB_and_subMask _ _ _)

end Laws.InRow

end Sys2Proof
end

