-- ==== Sys2Proof/Laws/Sprite.lean ====
section
/-!
SUPPORT. Pixels of the framebuffer after a write (44_display R111 to R113).
-/

namespace Sys2Proof.Machine

/-- Setting a pixel changes that pixel alone. -/
@[simp] theorem Framebuffer.pixel_setPixel (fb : Framebuffer) (r row : Fin 32) (c col : Fin 64) (b : Bool) :
    Framebuffer.pixel (Framebuffer.setPixel fb r c b) row col =
      if row = r ∧ col = c then b else Framebuffer.pixel fb row col := by
  unfold Framebuffer.pixel Framebuffer.setPixel
  simp only [Vector.get_eq_getElem, Vector.getElem_set, Fin.ext_iff]
  by_cases hr : r.val = row.val
  · by_cases hc : c.val = col.val
    · simp [hr, hc]
    · have hr' : r = row := Fin.ext hr
      subst hr'
      have hc' : col.val ≠ c.val := Ne.symm hc
      simp [hc, hc']
  · have hr' : row.val ≠ r.val := Ne.symm hr
    simp [hr, hr']

/-- Every pixel of the cleared framebuffer is 0. -/
@[simp] theorem Framebuffer.pixel_blank (row : Fin 32) (col : Fin 64) :
    Framebuffer.pixel Framebuffer.blank row col = false := by
  simp [Framebuffer.pixel, Framebuffer.blank, Vector.get_eq_getElem]

/-- Two framebuffers with the same pixels are one. -/
theorem Framebuffer.ext {f g : Framebuffer}
    (h : ∀ row col, Framebuffer.pixel f row col = Framebuffer.pixel g row col) : f = g := by
  apply Vector.ext
  intro r hr
  apply Vector.ext
  intro c hc
  simpa [Framebuffer.pixel, Vector.get_eq_getElem] using h ⟨r, hr⟩ ⟨c, hc⟩

/-- One pixel of a draw: which pixel changes and how. -/
theorem drawPixel_pixel (x0 y0 : Byte) (r : Nat) (byte : Byte) (acc : Framebuffer × Bool) (b : Nat) (row : Fin 32)
    (col : Fin 64) :
    Framebuffer.pixel (drawPixel x0 y0 r byte acc b).1 row col =
      (Framebuffer.pixel acc.1 row col ^^
        (decide (row = spriteRow y0 r ∧ col = spriteCol x0 b) && spriteBit byte b)) := by
  simp only [drawPixel, Framebuffer.pixel_setPixel]
  by_cases h : row = spriteRow y0 r ∧ col = spriteCol x0 b
  · simp [h.1, h.2]
  · simp [h]

/-- One pixel of a draw: the collision flag after it. -/
theorem drawPixel_collided (x0 y0 : Byte) (r : Nat) (byte : Byte) (acc : Framebuffer × Bool) (b : Nat) :
    (drawPixel x0 y0 r byte acc b).2 =
      (acc.2 || (Framebuffer.pixel acc.1 (spriteRow y0 r) (spriteCol x0 b) && spriteBit byte b)) := rfl

@[simp] theorem drawRows_nil (x0 y0 : Byte) (r : Nat) (acc : Framebuffer × Bool) : drawRows x0 y0 r [] acc = acc := rfl

@[simp] theorem drawRows_cons (x0 y0 : Byte) (r : Nat) (byte : Byte) (rows : List Byte) (acc : Framebuffer × Bool) :
    drawRows x0 y0 r (byte :: rows) acc = drawRows x0 y0 (r + 1) rows (drawRow x0 y0 r byte acc) := rfl

end Sys2Proof.Machine
end

