-- ==== Sys2Proof/Laws/Step.lean ====
section
/-!
SUPPORT. What a step, a core step and an instruction can do, said once (30_encoding R60, 00_scope R2).
-/

namespace Sys2Proof.Machine

variable {s t : State}

/-- With an operation scripted, the step performs it. -/
theorem step_of_script {op : HostOp} {rest : List HostOp} (h : s.env.script = op :: rest) :
    step s = (s.setEnv ⟨rest, s.env.rand, s.env.draws, s.env.loadOpen⟩).perform op := by
  simp [step, State.nextOp, h]

/-- With nothing scripted, the step is a `step` of the core on a fresh free value. -/
theorem step_of_empty_script (h : s.env.script = []) :
    step s = (s.setEnv ⟨[], s.env.rand, s.env.draws + 1, s.env.loadOpen⟩).perform (.step (Config.freeRand s.env.draws)) := by
  simp [step, State.nextOp, h]

/-- Taking the next operation off the script changes the host's side alone. -/
theorem State.nextOp_snd (s : State) : ∃ e, s.nextOp.2 = s.setEnv e ∧ e.rand = s.env.rand ∧ e.loadOpen = s.env.loadOpen := by
  unfold State.nextOp
  split <;> exact ⟨_, rfl, rfl, rfl⟩

/-- A core step that answers a next state waited, or ran the instruction at `PC`. -/
theorem State.coreStep_next (h : s.coreStep = .next t) :
    (s.mode = .awaitingKey ∧ t = s) ∨
    (s.mode = .running ∧ ∃ w i, s.fetch = some w ∧ decode w = .ok i ∧ exec i s = .next t) := by
  unfold State.coreStep at h
  split at h
  · rename_i hm
    injection h with h
    exact .inl ⟨hm, h.symm⟩
  · rename_i hm
    split at h
    · rename_i w hw
      unfold State.runWord at h
      split at h
      · exact .inr ⟨hm, w, _, hw, ‹_›, h⟩
      · cases h
    · cases h

/-- A core step that runs the instruction at `PC` is that instruction's meaning. -/
theorem State.coreStep_exec {w : InstrWord} {i : Instr} (hm : s.mode = .running) (hw : s.fetch = some w)
    (hi : decode w = .ok i) : s.coreStep = exec i s := by
  simp [State.coreStep, State.runWord, hm, hw, hi]

/-- `RET` that answers a next state. -/
theorem execRet_next (h : execRet s = .next t) :
    ∃ hs : 0 < s.sp.val, t = (s.setStack ⟨s.sp.val - 1, by omega⟩ s.stk).setPc (s.slot ⟨s.sp.val - 1, by omega⟩) := by
  unfold execRet at h
  split at h
  · rename_i a u hp
    obtain ⟨hs, hp⟩ := State.pop_eq_some hp
    injection h with h
    injection hp with ha hu
    exact ⟨hs, by rw [← h, ha, hu]⟩
  · cases h

/-- `CALL` that answers a next state. -/
theorem execCall_next {nnn : Addr} (h : execCall nnn s = .next t) :
    ∃ hs : s.sp.val < 16,
      t = (s.setStack ⟨s.sp.val + 1, Nat.succ_lt_succ hs⟩ (s.stk.set s.sp.val (s.pc + 2) hs)).setPc nnn := by
  unfold execCall at h
  split at h
  · obtain ⟨hs, hp⟩ := State.push_eq_some ‹_›
    injection h with h
    exact ⟨hs, by rw [← h, hp]; rfl⟩
  · cases h

/-- `LD B, Vx` that answers a next state. -/
theorem execLdB_next {x : Reg} (h : execLdB x s = .next t) :
    s.blockFits 2 = true ∧ t = (s.storeBytes (s.blockAddr 0) (decimalDigits (s.getV x))).advance := by
  unfold execLdB at h
  split at h
  · injection h with h
    exact ⟨‹_›, h.symm⟩
  · cases h

/-- `LD [I], Vx` that answers a next state. -/
theorem execLdMemV_next {x : Reg} (h : execLdMemV x s = .next t) :
    s.blockFits x.val = true ∧ t = ((s.storeBytes (s.blockAddr 0) (s.regsUpTo x)).bumpIndex x).advance := by
  unfold execLdMemV at h
  split at h
  · injection h with h
    exact ⟨‹_›, h.symm⟩
  · cases h

/-- `LD Vx, [I]` that answers a next state. -/
theorem execLdVMem_next {x : Reg} (h : execLdVMem x s = .next t) :
    s.blockFits x.val = true ∧ t = ((s.setRegs (s.regsLoaded x)).bumpIndex x).advance := by
  unfold execLdVMem at h
  split at h
  · injection h with h
    exact ⟨‹_›, h.symm⟩
  · cases h

/-- `DRW Vx, Vy, n` that answers a next state. -/
theorem execDrw_next {x y : Reg} {n : Nat} (h : execDrw x y n s = .next t) :
    s.spriteFits n = true ∧
      t = ((s.setFb (drawSprite s.fb (s.getV x) (s.getV y) (s.bytesAtIndex n)).1).setV vf
        (flagByte (drawSprite s.fb (s.getV x) (s.getV y) (s.bytesAtIndex n)).2)).advance := by
  unfold execDrw at h
  split at h
  · injection h with h
    exact ⟨‹_›, h.symm⟩
  · cases h

end Sys2Proof.Machine
end

