-- ==== Sys2Proof/Tests/Slice0.lean ====
section
/-!
SUPPORT. The model's own tests. Expected results are the spec's: the examples of its rules and the vectors of 95_test_vectors (named
V-CF, V-REG, V-IDX, V-RND, V-DRW, V-KEY, V-TMR, V-EXC with their row). The witnesses show, for each statement with hypotheses, a
state and operands that meet them.
-/

namespace Sys2Proof.Tests

open Sys2Proof.Machine

/-! ### Helpers -/

/-- The next state, where there is one. -/
def nextOf : Result → Option State
  | .next t => some t
  | .fault _ => none
  | .refused _ => none

/-- The error, where there is one. -/
def faultOf : Result → Option Fault
  | .fault f => some f
  | .next _ => none
  | .refused _ => none

/-- The refusal, where there is one. -/
def refusalOf : Result → Option Refusal
  | .refused r => some r
  | .next _ => none
  | .fault _ => none

/-- One step on a word placed at `PC`. -/
def runWord (w : Nat) (s : State) : Option State := nextOf (step (s.withFetchWord 16 w))

/-- The error of one step on a word placed at `PC`. -/
def failWord (w : Nat) (s : State) : Option Fault := faultOf (step (s.withFetchWord 16 w))

/-- The host's operations scripted. -/
def scripted (s : State) (ops : List HostOp) : State := s.setEnv { s.env with script := ops }

/-- Other parameters. -/
def configured (c : Config) : State := State.resetWith c Env.initial

/-- A word at 0x200 of the reset state. -/
def atReset (w : Nat) : State := State.reset.withFetchWord 16 w

/-- The reset state with `SP` addresses held, slot 0 at 0x202. -/
def held (n : Fin 17) : State := State.reset.setStack n ((Vector.replicate 16 0).set 0 0x202)

/-- A core that waits with `Vx` to receive the key. -/
def waiting (x : Reg) : State := ((State.reset.setWaitX x).setMode .awaitingKey).setPc 0x204

/-! ### WellFormed and decoding -/

theorem test_wellFormed_refuses_count_16 : (Instr.drw 0 1 16).WellFormed = false := by decide
theorem test_wellFormed_accepts_count_15 : (Instr.drw 0 1 15).WellFormed = true := by decide

theorem test_decode_controlFlow :
    [0x00E0#16, 0x00EE#16, 0x1ABC#16, 0x2ABC#16, 0x332A#16, 0x432A#16, 0x5120#16, 0x9120#16, 0xB300#16].map
      (fun w => (decode w).toOption) =
    [some .cls, some .ret, some (.jp 0xABC), some (.call 0xABC), some (.seImm 3 0x2A), some (.sneImm 3 0x2A),
      some (.seReg 1 2), some (.sneReg 1 2), some (.jpV0 0x300)] := by decide

theorem test_decode_registerOps :
    [0x6A2C#16, 0x70FF#16, 0x8120#16, 0x8121#16, 0x8122#16, 0x8123#16, 0x8124#16, 0x8125#16, 0x8126#16, 0x8127#16,
      0x812E#16].map (fun w => (decode w).toOption) =
    [some (.ldImm 0xA 0x2C), some (.addImm 0 0xFF), some (.ldReg 1 2), some (.orReg 1 2), some (.andReg 1 2),
      some (.xorReg 1 2), some (.addReg 1 2), some (.subReg 1 2), some (.shr 1 2), some (.subn 1 2),
      some (.shl 1 2)] := by decide

theorem test_decode_indexMemory :
    [0xA22A#16, 0xF21E#16, 0xF329#16, 0xF133#16, 0xF255#16, 0xF265#16].map (fun w => (decode w).toOption) =
    [some (.ldI 0x22A), some (.addI 2), some (.ldF 3), some (.ldB 1), some (.ldMemV 2), some (.ldVMem 2)] := by decide

theorem test_decode_devices :
    [0xC30F#16, 0xD015#16, 0xE19E#16, 0xE1A1#16, 0xF10A#16, 0xF207#16, 0xF015#16, 0xF218#16].map
      (fun w => (decode w).toOption) =
    [some (.rnd 3 0x0F), some (.drw 0 1 5), some (.skp 1), some (.sknp 1), some (.ldVK 1), some (.ldVDt 2),
      some (.ldDtV 0), some (.ldStV 2)] := by decide

/-- 30_encoding R65, R68: neighbours of listed words are unknown. -/
theorem test_decode_unknown :
    [0x0000#16, 0x0123#16, 0x00E1#16, 0x5121#16, 0x9123#16, 0x8128#16, 0x812F#16, 0xE19F#16, 0xF1FF#16, 0xF000#16].map
      (fun w => (decode w).toOption) = List.replicate 10 none := by decide

theorem test_decodeBytes_truncated : decodeBytes [0x12#8] = .error .truncated := rfl
theorem test_decodeTableWord : decodeTableWord 16 0x6A2C = some (.ldImm 0xA 0x2C) := by decide
theorem test_asm : (Instr.drw 0 15 5).asm = "DRW V0, VF, 5" := by decide
/-- 30_encoding R69: a shift without `Vy` is printed without it, and encodes `y = 0`; a data byte. -/
theorem test_assemble : asmText .shr [.reg 1] = "SHR V1" ∧
    (assemble .shr [.reg 1]).map AsmItem.bytes = some [0x81#8, 0x06#8] ∧
    (assemble .ld [.index, .num 0x22A]).map AsmItem.bytes = some [0xA2#8, 0x2A#8] ∧
    (assemble .db [.num 0xF0]).map AsmItem.bytes = some [0xF0#8] ∧ asmText .db [.num 240] = "DB 240" := by decide
theorem test_assemble_none : assemble .ld [.reg 1, .num 256] = none ∧ assemble .jp [.reg 1, .num 0x300] = none ∧
    assemble .ld [.reg 1, .sound] = none := by decide

/-! ### Control flow -/

/-- V-CF 1. -/
theorem test_cls : ((runWord 0x00E0 (((State.reset.setPc 0x208).setV 15 1).setFb
    (Framebuffer.setPixel Framebuffer.blank 5 9 true))).map
      fun t => (Framebuffer.pixel t.fb 5 9, t.pc, t.getV 15)) = some (false, 0x20A, 1) := by decide
/-- V-CF 2. -/
theorem test_ret : ((runWord 0x00EE ((held 1).setPc 0x208)).map fun t => (t.pc, t.sp, t.slot 0)) =
    some (0x202, 0, 0x202) := by decide
/-- V-CF 4. -/
theorem test_ret_underflow : failWord 0x00EE State.reset =
    some (.stackUnderflow ⟨some 0x00EE, 0x200, none⟩) := by decide
/-- V-CF 7. -/
theorem test_jp_odd : ((runWord 0x1203 State.reset).map fun t => t.pc) = some 0x203 := by decide
/-- V-CF 10. -/
theorem test_call_wraps : ((runWord 0x2ABC ((held 15).setPc 0xFFE)).map fun t => (t.slot 15, t.sp, t.pc)) =
    some (0, 16, 0xABC) := by decide
/-- V-CF 11. -/
theorem test_call_overflow : failWord 0x2ABC ((held 16).setPc 0x400) =
    some (.stackOverflow ⟨some 0x2ABC, 0x400, none⟩) := by decide
/-- V-CF 14, 16. -/
theorem test_seImm_wraps : ((runWord 0x3000 (State.reset.setPc 0xFFE)).map fun t => t.pc) = some 2 ∧
    ((runWord 0x3001 (State.reset.setPc 0xFFE)).map fun t => t.pc) = some 0 := by decide
/-- V-CF 17, 18. -/
theorem test_sneImm : ((runWord 0x432A ((State.reset.setPc 0x210).setV 3 0x2A)).map fun t => t.pc) = some 0x212 ∧
    ((runWord 0x432A ((State.reset.setPc 0x210).setV 3 0x2B)).map fun t => t.pc) = some 0x214 := by decide
/-- V-CF 19, 20. -/
theorem test_seReg : ((runWord 0x5120 (((State.reset.setPc 0x300).setV 1 7).setV 2 7)).map fun t => t.pc) = some 0x304 ∧
    ((runWord 0x5120 (((State.reset.setPc 0x300).setV 1 7).setV 2 8)).map fun t => t.pc) = some 0x302 := by decide
/-- V-CF 23, 24. -/
theorem test_sneReg : ((runWord 0x9120 (((State.reset.setPc 0x300).setV 1 7).setV 2 8)).map fun t => t.pc) = some 0x304 ∧
    ((runWord 0x9330 (State.reset.setPc 0x300)).map fun t => t.pc) = some 0x302 := by decide
/-- V-CF 27. -/
theorem test_jpV0_masked : ((runWord 0xBFFF (State.reset.setV 0 0xFF)).map fun t => t.pc) = some 0x0FE := by decide

/-! ### Register operations -/

/-- V-REG 2. -/
theorem test_ldImm_vf : ((runWord 0x6FFF State.reset).map fun t => (t.getV 15, t.pc)) = some (0xFF, 0x202) := by decide
/-- V-REG 3. -/
theorem test_addImm_noFlag : ((runWord 0x70FF (State.reset.setV 0 1)).map fun t => (t.getV 0, t.getV 15)) =
    some (0, 0) := by decide
/-- V-REG 5. -/
theorem test_ldReg : ((runWord 0x8120 (State.reset.setV 2 0x37)).map fun t => (t.getV 1, t.getV 2)) =
    some (0x37, 0x37) := by decide
/-- V-REG 6. -/
theorem test_or : ((runWord 0x8121 (((State.reset.setV 1 0xF0).setV 2 0x0F).setV 15 1)).map
    fun t => (t.getV 1, t.getV 15)) = some (0xFF, 1) := by decide
/-- V-REG 8. -/
theorem test_and : ((runWord 0x8122 (((State.reset.setV 1 0xF3).setV 2 0x3C).setV 15 1)).map
    fun t => (t.getV 1, t.getV 15)) = some (0x30, 1) := by decide
/-- V-REG 9. -/
theorem test_xor : ((runWord 0x8123 (((State.reset.setV 1 0xFF).setV 2 0x0F).setV 15 1)).map
    fun t => (t.getV 1, t.getV 15)) = some (0xF0, 1) := by decide
/-- V-REG 13. -/
theorem test_add_carry : ((runWord 0x8124 ((State.reset.setV 1 0xFF).setV 2 1)).map
    fun t => (t.getV 1, t.getV 15)) = some (0, 1) := by decide
/-- V-REG 15, 17. -/
theorem test_add_vf : ((runWord 0x8F14 ((State.reset.setV 15 0xF0).setV 1 0x20)).map fun t => t.getV 15) = some 0x10 ∧
    ((runWord 0x81F4 ((State.reset.setV 1 5).setV 15 3)).map fun t => (t.getV 1, t.getV 15)) = some (8, 0) := by decide
/-- V-REG 19, 21. -/
theorem test_sub : ((runWord 0x8125 ((State.reset.setV 1 0x10).setV 2 0x20)).map fun t => (t.getV 1, t.getV 15)) =
    some (0xF0, 0) ∧ ((runWord 0x8125 ((State.reset.setV 1 0x33).setV 2 0x33)).map
      fun t => (t.getV 1, t.getV 15)) = some (0, 1) := by decide
/-- V-REG 24. -/
theorem test_sub_vf : ((runWord 0x8F15 ((State.reset.setV 15 3).setV 1 5)).map fun t => t.getV 15) = some 0xFE := by decide
/-- V-REG 27. -/
theorem test_shr_vx : ((runWord 0x8126 (((State.reset.setV 1 4).setV 2 0xFF).setV 15 1)).map
    fun t => (t.getV 1, t.getV 2, t.getV 15)) = some (2, 0xFF, 0) := by decide
/-- V-REG 31. -/
theorem test_shr_vy : ((runWord 0x8126 (((configured { Config.default with shiftSource := .vy }).setV 1 4).setV 2 0xFF)).map
    fun t => (t.getV 1, t.getV 2, t.getV 15)) = some (0x7F, 0xFF, 1) := by decide
/-- V-REG 33. -/
theorem test_subn : ((runWord 0x8127 ((State.reset.setV 1 0x20).setV 2 0x10)).map fun t => (t.getV 1, t.getV 15)) =
    some (0xF0, 0) := by decide
/-- V-REG 35, 38. -/
theorem test_shl : ((runWord 0x810E (State.reset.setV 1 0x81)).map fun t => (t.getV 1, t.getV 15)) = some (2, 1) ∧
    ((runWord 0x8F0E (State.reset.setV 15 0xC1)).map fun t => t.getV 15) = some 0x82 := by decide
/-- V-REG 39. -/
theorem test_shl_vy : ((runWord 0x812E (((configured { Config.default with shiftSource := .vy }).setV 1 4).setV 2 0x81)).map
    fun t => (t.getV 1, t.getV 2, t.getV 15)) = some (2, 0x81, 1) := by decide

/-! ### Index register and memory -/

/-- V-IDX 1. -/
theorem test_ldI : ((runWord 0xAFFF State.reset).map fun t => (t.index, t.pc)) = some (0xFFF, 0x202) := by decide
/-- V-IDX 3. -/
theorem test_addI_wraps : ((runWord 0xF21E (((State.reset.setIndex 0xFFF).setV 2 1).setV 15 7)).map
    fun t => (t.index, t.getV 15)) = some (0, 7) := by decide
/-- V-IDX 6, 7. -/
theorem test_ldF : ((runWord 0xF329 (State.reset.setV 3 0x1A)).map fun t => t.index) = some 0x082 ∧
    ((runWord 0xF329 (State.reset.setV 3 0xFF)).map fun t => t.index) = some 0x09B := by decide
/-- V-IDX 9. -/
theorem test_ldB : ((runWord 0xF133 ((State.reset.setIndex 0x300).setV 1 0x9C)).map
    fun t => (t.byteAt 0x300, t.byteAt 0x301, t.byteAt 0x302)) = some (1, 5, 6) := by decide
/-- V-IDX 15. -/
theorem test_ldB_outOfRange : failWord 0xF133 ((State.reset.setIndex 0xFFE).setV 1 0x7B) =
    some (.addressOutOfRange ⟨some 0xF133, 0x200, some 0x1000⟩) := by decide
/-- V-IDX 16, 17. -/
theorem test_ldMemV : ((runWord 0xF255 (((((configured { Config.default with loadStoreIncrementsI := true }).setIndex
    0x400).setV 0 0x11).setV 2 0x33).setV 3 0x44)).map
      fun t => (t.byteAt 0x400, t.byteAt 0x402, t.byteAt 0x403, t.index)) = some (0x11, 0x33, 0, 0x403) := by decide
/-- V-IDX 19. -/
theorem test_ldMemV_outOfRange : failWord 0xF155 (State.reset.setIndex 0xFFF) =
    some (.addressOutOfRange ⟨some 0xF155, 0x200, some 0x1000⟩) := by decide
/-- V-IDX 22. -/
theorem test_ldVMem : ((runWord 0xF265 (((State.reset.setIndex 0x300).storeBytes 0x300 [0, 1, 5, 9]).setV 3 0x77)).map
    fun t => (t.getV 1, t.getV 2, t.getV 3, t.index)) = some (1, 5, 0x77, 0x300) := by decide
/-- V-IDX 24. -/
theorem test_ldVMem_outOfRange : failWord 0xF165 (State.reset.setIndex 0xFFF) =
    some (.addressOutOfRange ⟨some 0xF165, 0x200, some 0x1000⟩) := by decide

/-! ### Random, display, input, timers -/

/-- V-RND 1. -/
theorem test_rnd : ((nextOf (step (scripted (atReset 0xC30F) [.step 0xA7]))).map fun t => t.getV 3) = some 7 := by decide
/-- V-DRW 4. -/
theorem test_drw_collides : ((runWord 0xD011 (((((State.reset.setIndex 0x300).storeBytes 0x300 [0xF0]).setV 0 4).setV 1 2).setFb
    (Framebuffer.setPixel Framebuffer.blank 2 5 true))).map fun t => (Framebuffer.pixel t.fb 2 4, Framebuffer.pixel t.fb 2 5,
      Framebuffer.pixel t.fb 2 7, Framebuffer.pixel t.fb 2 8, t.getV 15)) = some (true, false, true, false, 1) := by decide
/-- V-DRW 3: both coordinates wrap. -/
theorem test_drw_wraps : ((runWord 0xD011 ((((State.reset.setIndex 0x300).storeBytes 0x300 [0xC0]).setV 0 0xFF).setV 1
    0xFF)).map fun t => (Framebuffer.pixel t.fb 31 63, Framebuffer.pixel t.fb 31 0, t.getV 15)) = some (true, true, 0) := by decide
/-- V-KEY 3. -/
theorem test_skp : ((runWord 0xE19E (((State.reset.setPc 0x208).setV 1 0x17).setKeyFlag 7 true)).map fun t => t.pc) =
    some 0x20C := by decide
/-- V-KEY 4, 5. -/
theorem test_sknp : ((runWord 0xE1A1 (((State.reset.setPc 0x208).setV 1 7).setKeyFlag 7 true)).map fun t => t.pc) =
    some 0x20A ∧ ((runWord 0xE1A1 ((State.reset.setPc 0x208).setV 1 7)).map fun t => t.pc) = some 0x20C := by decide
/-- V-KEY 7. -/
theorem test_ldVK : ((runWord 0xF10A (((State.reset.setPc 0x204).setV 1 0xEE).setKeyFlag 3 true)).map
    fun t => (t.mode, t.waitX, t.pc, t.getV 1)) = some (.awaitingKey, 1, 0x204, 0xEE) := by decide
/-- V-KEY 11. -/
theorem test_setKey_completes : ((nextOf (step (scripted (waiting 1) [.setKey 3 true]))).map
    fun t => (t.getV 1, t.pc, t.mode, t.keyDown 3)) = some (3, 0x206, .running, true) := by decide
/-- V-KEY 9, 10: a held key and a release do not complete the wait. -/
theorem test_setKey_held : ((nextOf (step (scripted ((waiting 1).setKeyFlag 3 true) [.setKey 3 true]))).map
    fun t => t.mode) = some .awaitingKey ∧ ((nextOf (step (scripted ((waiting 1).setKeyFlag 3 true)
      [.setKey 3 false]))).map fun t => (t.mode, t.keyDown 3)) = some (.awaitingKey, false) := by decide
/-- V-TMR 1. -/
theorem test_ldVDt : ((runWord 0xF207 (State.reset.setDelay 0x39)).map fun t => t.getV 2) = some 0x39 := by decide
/-- V-TMR 2. -/
theorem test_ldDtV : ((runWord 0xF015 (State.reset.setV 0 0x3C)).map fun t => (t.dt, t.st)) = some (0x3C, 0) := by decide
/-- V-TMR 3. -/
theorem test_ldStV : ((runWord 0xF218 (State.reset.setV 2 0x39)).map fun t => (t.st, t.isSoundActive)) =
    some (0x39, true) := by decide
/-- V-TMR 5. -/
theorem test_tick : ((nextOf (step (scripted (State.reset.setSound 0xFF) [.tickTimers]))).map fun t => (t.dt, t.st)) =
    some (0, 0xFE) := by decide

/-! ### Fetch, decode, errors, host -/

/-- V-EXC 1. -/
theorem test_fetch_top : faultOf (step (State.reset.setPc 0xFFF)) =
    some (.addressOutOfRange ⟨none, 0xFFF, some 0x1000⟩) := by decide
/-- V-EXC 2, 3. -/
theorem test_fetch_places : ((runWord 0x6A01 (State.reset.setPc 0xFFE)).map fun t => (t.getV 0xA, t.pc)) = some (1, 0) ∧
    ((runWord 0x6A01 (State.reset.setPc 0x201)).map fun t => (t.getV 0xA, t.pc)) = some (1, 0x203) := by decide
/-- V-EXC 4. -/
theorem test_unknown : failWord 0x0123 State.reset = some (.unknownOpcode ⟨some 0x0123, 0x200, none⟩) := by decide
/-- V-EXC 5. -/
theorem test_unknown_skip : (((configured { Config.default with unknownOpcodePolicy := .skip }).withFetchWord 16
    0x0123).afterStepFault (.unknownOpcode ⟨some 0x0123, 0x200, none⟩)).pc = 0x202 := by decide
/-- 20_memory R46: glyph 0 at 0x050, glyph F at 0x09B, zero beside them. -/
theorem test_font : [0x04F, 0x050, 0x051, 0x09B, 0x09F, 0x0A0].map State.reset.byteAt =
    [0, 0xF0, 0x90, 0xF0, 0x80, 0] := by decide
/-- 20_memory R47, 70_reset R165. -/
theorem test_load : ((nextOf (step (scripted State.reset [.loadProgram [0xA2, 0x2A]]))).map
    fun t => (t.byteAt 0x200, t.byteAt 0x201, t.env.loadOpen)) = some (0xA2, 0x2A, false) ∧
    refusalOf (State.loadProgram (State.reset.setEnv { Env.initial with loadOpen := false }) []) =
      some .loadOutOfContract := by decide
/-- 20_memory R42: a font byte is overwritten, and writing the reset value back lists nothing. -/
theorem test_memory_canonical : Memory.write Config.default [] 0x050 0xAB = [(0x050, 0xAB)] ∧
    Memory.write Config.default [(0x050, 0xAB)] 0x050 0xF0 = [] := by decide

/-! ### Witnesses: states and operands that meet the hypotheses of the statements -/

theorem witness_DecodeOfEncode : (Instr.drw 15 0 15).WellFormed = true := by decide
theorem witness_EncodeOfDecode : decode 0xDF0F#16 = .ok (.drw 15 0 15) := rfl
theorem witness_DecodeFollowsOpcodeTable : (∃ r ∈ opcodeTable, r.matchesWord 0x8F1E#16 = true) ∧
    ∀ r ∈ opcodeTable, r.matchesWord 0x0000#16 = false := by decide
theorem witness_StepRunsDecodedInstruction :
    (∃ s : State, s.env.script = [.step 7] ∧ s.mode = .running ∧ s.pc ≠ 0xFFF#12 ∧ decode (wordAtPc s) = .ok (.ldImm 1 2)) ∧
    (∃ s : State, s.env.script = [] ∧ s.mode = .running ∧ s.pc ≠ 0xFFF#12 ∧ decode (wordAtPc s) = .ok (.ldImm 1 2)) :=
  ⟨⟨scripted (atReset 0x6102) [.step 7], rfl, rfl, by decide, rfl⟩, ⟨atReset 0x6102, rfl, rfl, by decide, rfl⟩⟩
theorem witness_FetchIsTwoBytesBigEndian : (State.reset.setPc 0xFFE).pc ≠ 0xFFF#12 ∧
    (State.reset.setPc 0xFFF).pc = 0xFFF#12 ∧ (State.reset.setPc 0xFFF).mode = .running := by decide
theorem witness_UnknownOpcodeReported :
    (State.reset.mode = .running ∧ State.reset.pc ≠ 0xFFF#12 ∧ (decode (wordAtPc State.reset)).toOption = none ∧
      State.reset.cfg.unknownOpcodePolicy = .halt) ∧
    (configured { Config.default with unknownOpcodePolicy := .skip }).cfg.unknownOpcodePolicy = .skip := by decide
theorem witness_WaitingStepChangesNothing : (waiting 1).mode = .awaitingKey ∧
    (scripted (waiting 1) [.step 0]).env.script = [.step 0] ∧ (scripted (waiting 1) [.step 0]).mode = .awaitingKey ∧
    (scripted (waiting 1) [.tickTimers]).env.script = [.tickTimers] ∧
    (scripted (waiting 1) [.tickTimers]).mode = .awaitingKey := by decide
theorem witness_RetPopsOrUnderflows : (held 0).sp = 0 ∧ (held 1).sp.val = (0 : Fin 16).val + 1 ∧
    (held 16).sp.val = (15 : Fin 16).val + 1 := by decide
theorem witness_CallPushesOrOverflows : (held 16).sp = 16 ∧ (held 0).sp.val = (0 : Fin 16).val ∧
    (held 15).sp.val = (15 : Fin 16).val := by decide
theorem witness_ShiftsCaptureTheBitOut : State.reset.cfg.shiftSource = .vx ∧
    (configured { Config.default with shiftSource := .vy }).cfg.shiftSource = .vy := by decide
theorem witness_BcdStoresThreeDigits : (State.reset.setIndex 0xFFD).index.toNat + 2 ≤ 0xFFF ∧
    0xFFF < (State.reset.setIndex 0xFFE).index.toNat + 2 := by decide
theorem witness_DumpStoresRegisters : (State.reset.setIndex 0xFF0).index.toNat + (15 : Reg).val ≤ 0xFFF ∧
    0xFFF < (State.reset.setIndex 0xFF1).index.toNat + (15 : Reg).val ∧
    (configured { Config.default with loadStoreIncrementsI := true }).cfg.loadStoreIncrementsI = true ∧
    State.reset.cfg.loadStoreIncrementsI = false := by decide
theorem witness_LoadReadsRegisters : (State.reset.setIndex 0xFFF).index.toNat + (0 : Reg).val ≤ 0xFFF ∧
    0xFFF < (State.reset.setIndex 0xFFF).index.toNat + (1 : Reg).val := by decide
theorem witness_RndMasksTheRandomByte : (0x05#8) &&& ~~~(0x0F#8) = 0#8 := by decide
theorem witness_DrwXorsTheSprite : 15 < 16 ∧ (State.reset.setIndex 0xFF1).index.toNat + 15 - 1 ≤ 0xFFF ∧
    0xFFF < (State.reset.setIndex 0xFF2).index.toNat + 15 - 1 ∧
    (31 : Fin 32).val = ((State.reset.setV 1 0xFF).getV 1).toNat % 32 ∧
    (63 : Fin 64).val = ((State.reset.setV 1 0xFF).getV 1).toNat % 64 := by decide
theorem witness_KeySkipsTestTheFlag : (15 : Key).val = ((State.reset.setV 1 0xFF).getV 1).toNat % 16 := by decide
theorem witness_SetKeySetsOneFlagAndEndsAWait : ((waiting 1).mode = .awaitingKey ∧ (waiting 1).keyDown 3 = false) ∧
    ¬(State.reset.mode = .awaitingKey) ∧ HostOp.tickTimers ≠ .reset ∧ (∀ q p, HostOp.tickTimers ≠ .setKey q p) := by
  exact ⟨by decide, by decide, by decide, fun _ _ => by simp⟩
theorem witness_LoadProgramCopiesOrRejects : State.reset.env.loadOpen = true ∧
    (List.replicate 3584 (0x00#8)).length ≤ 3584 ∧ 3584 < (List.replicate 3585 (0x00#8)).length :=
  ⟨rfl, by rw [List.length_replicate], by rw [List.length_replicate]; decide⟩
theorem witness_LateLoadRefused : (State.reset.setEnv { Env.initial with loadOpen := false }).env.loadOpen = false ∧
    (∃ t, (waiting 1).perform (.step 0) = .next t) ∧ (∃ t, State.reset.perform (.loadProgram [1]) = .next t) :=
  ⟨rfl, ⟨_, rfl⟩, ⟨_, rfl⟩⟩
theorem witness_ObserversFollowTheState : (State.reset.setSound 1).st = 1#8 := by decide

/-- The invariant holds at a state that runs, and at one that has entered the wait. -/
theorem witness_StepKeepsInvariant :
    (atReset 0x6102).Inv ∧ (∃ t, step (atReset 0x6102) = .next t) ∧
    (scripted ((atReset 0xF10A).setEnv { Env.initial with loadOpen := false }) [.step 0]).Inv ∧
    (∃ t, step (scripted ((atReset 0xF10A).setEnv { Env.initial with loadOpen := false }) [.step 0]) = .next t ∧
      t.mode = .awaitingKey) :=
  ⟨⟨rfl, fun h => nomatch h⟩, ⟨_, rfl⟩, ⟨rfl, fun h => nomatch h⟩, ⟨_, rfl, rfl⟩⟩

theorem witness_StepKeepsInvariant_waiting :
    (((atReset 0xF10A).setEnv { Env.initial with loadOpen := false }).setWaitX 1 |>.setMode .awaitingKey).Inv :=
  ⟨rfl, fun _ => ⟨rfl, 0xF10A#16, rfl, rfl⟩⟩

theorem witness_CanonicalMemoryIsUnique : Memory.wf Config.default [(0x050, 0xAB), (0x200, 0x12)] = true := by decide
theorem witness_FailingStepLeavesTheCore :
    step State.reset = .fault (.unknownOpcode ⟨some 0x0000, 0x200, none⟩) ∧ State.reset.cfg.unknownOpcodePolicy = .halt ∧
    step (configured { Config.default with unknownOpcodePolicy := .skip }) =
      .fault (.unknownOpcode ⟨some 0x0000, 0x200, none⟩) := ⟨rfl, rfl, rfl⟩
theorem witness_RepeatedStepFailsAgain :
    (scripted State.reset [.step 1, .step 2]).env.script = [.step 1, .step 2] ∧
    step (scripted State.reset [.step 1, .step 2]) = .fault (.unknownOpcode ⟨some 0x0000, 0x200, none⟩) ∧
    (scripted State.reset [.step 1, .step 2]).cfg.unknownOpcodePolicy = .halt := ⟨rfl, rfl, rfl⟩
theorem witness_OnlyLateLoadsAreRefused :
    step (scripted (State.reset.setEnv { Env.initial with loadOpen := false }) [.loadProgram [1]]) =
      .refused .loadOutOfContract := rfl

/-- A next state of each shape of instruction: the hypothesis of the rules over all instructions. -/
theorem witness_instructionsAnswerNext :
    (∃ t, exec (.drw 0 1 5) State.reset = .next t) ∧ (∃ t, exec .ret (held 1) = .next t) ∧
    (∃ t, exec (.call 0x300) (held 15) = .next t) ∧ (∃ t, exec (.ldMemV 15) State.reset = .next t) :=
  ⟨⟨_, rfl⟩, ⟨_, rfl⟩, ⟨_, rfl⟩, ⟨_, rfl⟩⟩
theorem witness_OnlyFlagInstructionsWriteVF :
    ∃ t, exec (.addReg 1 2) ((State.reset.setV 1 0xFF).setV 2 1) = .next t ∧
      t.getV 15 ≠ ((State.reset.setV 1 0xFF).setV 2 1).getV 15 := ⟨_, rfl, by decide⟩
theorem witness_ModeChangesOnlyByWaitAndKey :
    (∃ t, step (atReset 0xF10A) = .next t ∧ (atReset 0xF10A).mode = .running ∧ t.mode = .awaitingKey) ∧
    (∃ t, step (scripted (waiting 1) [.setKey 3 true]) = .next t ∧
      (scripted (waiting 1) [.setKey 3 true]).mode = .awaitingKey ∧ t.mode = .running) :=
  ⟨⟨_, rfl, rfl, rfl⟩, ⟨_, rfl, rfl, rfl⟩⟩
theorem witness_ParametersAndKeysAreTheHosts : ∃ t, step (scripted State.reset [.tickTimers]) = .next t ∧
    (scripted State.reset [.tickTimers]).nextOp.1 = .tickTimers := ⟨_, rfl, rfl⟩
theorem witness_TicksCommuteWithInstructions : (∀ x, Instr.cls ≠ .ldVDt x ∧ Instr.cls ≠ .ldDtV x ∧ Instr.cls ≠ .ldStV x) ∧
    ∃ t, exec .cls State.reset = .next t := ⟨fun _ => ⟨nofun, nofun, nofun⟩, ⟨_, rfl⟩⟩
theorem witness_OnlyRndReadsRand : (∀ x nn, Instr.cls ≠ .rnd x nn) ∧ ∃ t, exec .cls State.reset = .next t :=
  ⟨fun _ _ => nofun, ⟨_, rfl⟩⟩
theorem witness_DrawingTwiceRestores : (List.replicate 15 (0xFF#8)).length ≤ 15 ∧
    (∃ byte ∈ List.replicate 15 (0xFF#8), byte ≠ 0#8) ∧
    ∀ row col, Framebuffer.pixel Framebuffer.blank row col = false :=
  ⟨by decide, by decide, Framebuffer.pixel_blank⟩
theorem witness_AssemblerLinesSelectOneInstruction : (Instr.drw 15 0 15).WellFormed = true ∧
    assemble .shl [.reg 15] = some (.instr (.shl 15 0)) ∧ assemble .ld [.memIndex, .reg 15] = some (.instr (.ldMemV 15)) ∧
    assemble .db [.num 255] = some (.data 0xFF#8) := by decide
theorem witness_ShiftsIgnoreTheOtherRegister : State.reset.cfg.shiftSource = .vx ∧
    (State.resetWith { Config.default with shiftSource := .vy } Env.initial).cfg.shiftSource = .vy ∧
    (15 : Reg) ≠ 0 := by decide
theorem witness_ReadAfterWrite : 0xFFF ≤ 0xFFF ∧ 0xFFF < 0x1000 := by decide
theorem witness_StoredBytesAreFetchedNext :
    ∃ t, exec (.ldMemV 1) ((State.reset.setPc 0x206).setIndex 0x208) = .next t ∧ t.pc ≠ 0xFFF#12 ∧
      (0 : Reg).val + 1 ≤ (1 : Reg).val ∧
      ((State.reset.setPc 0x206).setIndex 0x208).blockAddr (0 : Reg).val = t.pc.toNat ∧
      (1 : Reg).val = (0 : Reg).val + 1 := ⟨_, rfl, by decide, by decide, by decide, by decide⟩
theorem witness_CallThenReturn : (held 15).sp ≠ 16 := by decide

/-- 70_reset R169 (b): a completed program, with the host still to step, tick and press a key. -/
theorem witness_Completed :
    (scripted (atReset 0x1200) [.step 1, .tickTimers, .setKey 3 true]).Completed ∧
    ∀ op ∈ (scripted (atReset 0x1200) [.step 1, .tickTimers, .setKey 3 true]).env.script, op.goesOn = true :=
  ⟨⟨rfl, 0x1200#16, rfl, rfl⟩, by decide⟩

end Sys2Proof.Tests
end

section
/-!
PROOFS. What an instruction leaves as it was, field by field: one rule for each setter, one theorem over all instructions,
and from it the frame of every instruction (10_state R10 to R18, 20_memory R40).
-/

namespace Sys2Proof.Machine

variable {s t u : State} {ps : List Part} {p : Part} {i : Instr}

/-- The fields behind a part are equal as data. It is stronger than `Part.Same`, which compares what the observers read;
`memory` names the parameters too, since an unlisted byte reads as they say. -/
def Part.Kept (s t : State) : Part → Prop
  | .regs => t.v = s.v
  | .index => t.index = s.index
  | .stack => t.sp = s.sp ∧ t.stk = s.stk
  | .delay => t.dt = s.dt
  | .sound => t.st = s.st
  | .display => t.fb = s.fb
  | .keys => t.key = s.key
  | .memory => t.cfg = s.cfg ∧ t.mem = s.mem
  | .wait => t.mode = s.mode ∧ t.waitX = s.waitX
  | .setup => t.cfg = s.cfg ∧ t.env = s.env

theorem Part.Kept.refl (p : Part) (s : State) : p.Kept s s := by
  cases p <;> simp [Part.Kept]

theorem Part.Kept.trans (h : p.Kept s t) (h' : p.Kept t u) : p.Kept s u := by
  cases p <;> simp_all [Part.Kept]

/-- Equal fields read alike. -/
theorem Part.Kept.same (h : p.Kept s t) : p.Same s t := by
  cases p with
  | regs => intro r; rw [State.getV, h, State.getV]
  | stack => exact ⟨h.1, fun j => by rw [State.slot, h.2, State.slot]⟩
  | display => intro row col; rw [show t.fb = s.fb from h]
  | keys => intro k; rw [State.keyDown, h, State.keyDown]
  | memory => intro a; rw [State.byteAt_def, h.1, h.2, State.byteAt_def]
  | index | delay | sound | wait | setup => exact h

/-- The fields of every part outside a list are equal. -/
def KeepsOutside (ps : List Part) (s t : State) : Prop := ∀ p, p ∉ ps → p.Kept s t

theorem KeepsOutside.onlyChanges (h : KeepsOutside ps s t) : OnlyChanges ps s t := fun p hp => (h p hp).same

theorem KeepsOutside.trans (h : KeepsOutside ps s t) (h' : KeepsOutside ps t u) : KeepsOutside ps s u :=
  fun p hp => (h p hp).trans (h' p hp)

/-- A write to the fields of one part keeps the rest. -/
theorem keepsOutside_of_ne {q : Part} (hq : q ∈ ps) (h : ∀ p, p ≠ q → p.Kept s t) : KeepsOutside ps s t :=
  fun p hp => h p fun e => hp (e ▸ hq)

/-! ### One rule for each setter -/

theorem keepsOutside_setPc (ps : List Part) (s : State) (a : Addr) : KeepsOutside ps s (s.setPc a) :=
  fun p _ => Part.Kept.refl p s

theorem keepsOutside_setV (hp : .regs ∈ ps) (s : State) (x : Reg) (b : Byte) : KeepsOutside ps s (s.setV x b) :=
  keepsOutside_of_ne hp fun p hne => by cases p <;> simp [Part.Kept] at hne ⊢

theorem keepsOutside_setRegs (hp : .regs ∈ ps) (s : State) (v : Vector Byte 16) : KeepsOutside ps s (s.setRegs v) :=
  keepsOutside_of_ne hp fun p hne => by cases p <;> simp [Part.Kept] at hne ⊢

theorem keepsOutside_setIndex (hp : .index ∈ ps) (s : State) (a : Addr) : KeepsOutside ps s (s.setIndex a) :=
  keepsOutside_of_ne hp fun p hne => by cases p <;> simp [Part.Kept] at hne ⊢

theorem keepsOutside_setStack (hp : .stack ∈ ps) (s : State) (sp : Fin 17) (stk : Vector Addr 16) :
    KeepsOutside ps s (s.setStack sp stk) :=
  keepsOutside_of_ne hp fun p hne => by cases p <;> simp [Part.Kept] at hne ⊢

theorem keepsOutside_setDelay (hp : .delay ∈ ps) (s : State) (b : Byte) : KeepsOutside ps s (s.setDelay b) :=
  keepsOutside_of_ne hp fun p hne => by cases p <;> simp [Part.Kept] at hne ⊢

theorem keepsOutside_setSound (hp : .sound ∈ ps) (s : State) (b : Byte) : KeepsOutside ps s (s.setSound b) :=
  keepsOutside_of_ne hp fun p hne => by cases p <;> simp [Part.Kept] at hne ⊢

theorem keepsOutside_setFb (hp : .display ∈ ps) (s : State) (fb : Framebuffer) : KeepsOutside ps s (s.setFb fb) :=
  keepsOutside_of_ne hp fun p hne => by cases p <;> simp [Part.Kept] at hne ⊢

theorem keepsOutside_storeBytes (hp : .memory ∈ ps) (s : State) (a : Nat) (bs : List Byte) :
    KeepsOutside ps s (s.storeBytes a bs) :=
  keepsOutside_of_ne hp fun p hne => by cases p <;> simp [Part.Kept] at hne ⊢

theorem keepsOutside_setWaitX (hp : .wait ∈ ps) (s : State) (x : Reg) : KeepsOutside ps s (s.setWaitX x) :=
  keepsOutside_of_ne hp fun p hne => by cases p <;> simp [Part.Kept] at hne ⊢

theorem keepsOutside_setMode (hp : .wait ∈ ps) (s : State) (m : Mode) : KeepsOutside ps s (s.setMode m) :=
  keepsOutside_of_ne hp fun p hne => by cases p <;> simp [Part.Kept] at hne ⊢

/-- `pc <- NEXT` after a write. -/
theorem KeepsOutside.advance (h : KeepsOutside ps s t) : KeepsOutside ps s t.advance :=
  h.trans (keepsOutside_setPc ps t t.next)

theorem KeepsOutside.bumpIndex (h : KeepsOutside ps s t) (hp : .index ∈ ps) (x : Reg) :
    KeepsOutside ps s (t.bumpIndex x) := by
  rw [State.bumpIndex_eq]
  exact h.trans (keepsOutside_setIndex hp t _)

theorem keepsOutside_storeFlagged (hp : .regs ∈ ps) (s : State) (x : Reg) (f : Bool) (r : Byte) :
    KeepsOutside ps s (s.storeFlagged x f r) :=
  ((keepsOutside_setV hp s vf _).trans (keepsOutside_setV hp _ x r)).advance

/-! ### All instructions -/

/-- An instruction that answers a next state keeps the fields of every part it does not name. -/
theorem exec_keepsOutside (h : exec i s = .next t) : KeepsOutside (mayChange i) s t := by
  have head {q : Part} {qs : List Part} : q ∈ q :: qs := List.mem_cons_self
  cases i with
  | jp | seImm | sneImm | seReg | sneReg | jpV0 | skp | sknp =>
    obtain rfl := Host.Outcome.next.inj h
    exact keepsOutside_setPc _ s _
  | ldImm | addImm | ldReg | orReg | andReg | xorReg | rnd | ldVDt =>
    obtain rfl := Host.Outcome.next.inj h
    exact (keepsOutside_setV head s _ _).advance
  | addReg | subReg | shr | subn | shl =>
    obtain rfl := Host.Outcome.next.inj h
    exact keepsOutside_storeFlagged head s _ _ _
  | ldI | addI | ldF =>
    obtain rfl := Host.Outcome.next.inj h
    exact (keepsOutside_setIndex head s _).advance
  | cls =>
    obtain rfl := Host.Outcome.next.inj h
    exact (keepsOutside_setFb head s _).advance
  | ldDtV =>
    obtain rfl := Host.Outcome.next.inj h
    exact (keepsOutside_setDelay head s _).advance
  | ldStV =>
    obtain rfl := Host.Outcome.next.inj h
    exact (keepsOutside_setSound head s _).advance
  | ldVK =>
    obtain rfl := Host.Outcome.next.inj h
    exact (keepsOutside_setWaitX head s _).trans (keepsOutside_setMode head _ _)
  | ret =>
    obtain ⟨-, rfl⟩ := execRet_next h
    exact (keepsOutside_setStack head s _ _).trans (keepsOutside_setPc _ _ _)
  | call =>
    obtain ⟨-, rfl⟩ := execCall_next h
    exact (keepsOutside_setStack head s _ _).trans (keepsOutside_setPc _ _ _)
  | ldB =>
    obtain ⟨-, rfl⟩ := execLdB_next h
    exact (keepsOutside_storeBytes head s _ _).advance
  | ldMemV =>
    obtain ⟨-, rfl⟩ := execLdMemV_next h
    exact ((keepsOutside_storeBytes head s _ _).bumpIndex (.tail _ head) _).advance
  | ldVMem =>
    obtain ⟨-, rfl⟩ := execLdVMem_next h
    exact ((keepsOutside_setRegs head s _).bumpIndex (.tail _ head) _).advance
  | drw =>
    obtain ⟨-, rfl⟩ := execDrw_next h
    exact ((keepsOutside_setFb (.tail _ head) s _).trans (keepsOutside_setV head _ _ _)).advance

theorem wait_mem_mayChange : Part.wait ∈ mayChange i ↔ ∃ x, i = .ldVK x := by
  cases i <;> simp [mayChange]

theorem memory_mem_mayChange : Part.memory ∈ mayChange i ↔ ∃ x, i = .ldB x ∨ i = .ldMemV x := by
  cases i <;> simp [mayChange]

theorem keys_notMem_mayChange (i : Instr) : Part.keys ∉ mayChange i := by
  cases i <;> simp [mayChange]

theorem setup_notMem_mayChange (i : Instr) : Part.setup ∉ mayChange i := by
  cases i <;> simp [mayChange]

/-- An instruction enters the wait, and then it is `LD Vx, K`, or leaves `MODE` and `WAITX` (10_state R18). -/
theorem exec_entersWait_or_keeps (h : exec i s = .next t) :
    (∃ x, i = .ldVK x ∧ t = (s.setWaitX x).setMode .awaitingKey) ∨ Part.wait.Kept s t := by
  by_cases hi : Part.wait ∈ mayChange i
  · obtain ⟨x, rfl⟩ := wait_mem_mayChange.1 hi
    exact .inl ⟨x, rfl, (Host.Outcome.next.inj h).symm⟩
  · exact .inr (exec_keepsOutside h _ hi)

/-- Settles O46: every instruction is a chain of setters, each of which keeps the parts it does not write. -/
theorem instructionsChangeOnlyTheirParts : Obligations.InstructionsChangeOnlyTheirParts :=
  fun _ _ _ h => (exec_keepsOutside h).onlyChanges

end Sys2Proof.Machine
end

section
/-!
PROOFS. The registers an instruction may write, `VF` among them (10_state R11).
-/

namespace Sys2Proof.Machine

variable {s t : State} {i : Instr} {r x : Reg}

/-- The registers an instruction may write: its destination, `VF` beside it where it has a flag, and the registers up to
`Vx` for a load from memory. -/
def MayWriteReg : Instr → Reg → Prop
  | .ldImm x _, r => r = x
  | .addImm x _, r => r = x
  | .rnd x _, r => r = x
  | .ldReg x _, r => r = x
  | .orReg x _, r => r = x
  | .andReg x _, r => r = x
  | .xorReg x _, r => r = x
  | .ldVDt x, r => r = x
  | .ldVMem x, r => r.val ≤ x.val
  | .addReg x _, r => r = x ∨ r = vf
  | .subReg x _, r => r = x ∨ r = vf
  | .shr x _, r => r = x ∨ r = vf
  | .subn x _, r => r = x ∨ r = vf
  | .shl x _, r => r = x ∨ r = vf
  | .drw _ _ _, r => r = vf
  | _, _ => False

theorem State.getV_setV_of_ne (h : r ≠ x) (s : State) (b : Byte) : (s.setV x b).getV r = s.getV r := by
  rw [State.getV_setV, if_neg h]

theorem State.getV_storeFlagged_of_ne (h : ¬(r = x ∨ r = vf)) (s : State) (f : Bool) (b : Byte) :
    (s.storeFlagged x f b).getV r = s.getV r := by
  obtain ⟨hx, hf⟩ := not_or.1 h
  rw [State.getV_storeFlagged, if_neg hx, if_neg hf]

/-- The frame of the register file: a register no instruction may write keeps its value. -/
theorem exec_getV_of_not_mayWriteReg (h : exec i s = .next t) (hr : ¬MayWriteReg i r) : t.getV r = s.getV r := by
  cases i with
  | ldImm | addImm | rnd | ldReg | orReg | andReg | xorReg | ldVDt =>
    obtain rfl := Host.Outcome.next.inj h
    exact State.getV_setV_of_ne hr s _
  | addReg | subReg | shr | subn | shl =>
    obtain rfl := Host.Outcome.next.inj h
    exact State.getV_storeFlagged_of_ne hr s _ _
  | ldVMem x =>
    obtain ⟨-, rfl⟩ := execLdVMem_next h
    simp only [State.bumpIndex_eq, State.advance_def, State.setPc_getV, State.setIndex_getV, State.getV_setRegs]
    exact (s.regsLoaded_get x r).trans (if_neg hr)
  | drw =>
    obtain ⟨-, rfl⟩ := execDrw_next h
    exact State.getV_setV_of_ne hr _ _
  | _ => exact (exec_keepsOutside h).onlyChanges .regs (by simp [mayChange]) r

/-- Settles O48: a change of `VF` means that the instruction may write it, and the instructions that may are the listed ones. -/
theorem onlyFlagInstructionsWriteVF : Obligations.OnlyFlagInstructionsWriteVF := by
  intro i s t h hne
  have hw : MayWriteReg i 15 := by
    by_contra hn
    exact hne (exec_getV_of_not_mayWriteReg h hn)
  cases i with
  | ldVMem x =>
    have hx : x = 15 := Fin.ext (le_antisymm (Nat.le_of_lt_succ x.isLt) hw)
    simp [hx]
  | ldImm x | addImm x | rnd x | ldReg x | orReg x | andReg x | xorReg x | ldVDt x =>
    obtain rfl : 15 = x := hw
    simp
  | addReg | subReg | shr | subn | shl | drw => simp
  | _ => exact hw.elim

end Sys2Proof.Machine
end

section
/-!
PROOFS. What a step leaves as it was: the parameters and the keys, `MODE`, and the invariant of the machine (10_state R17,
R18, R20; 45_input R120 to R122; 70_reset R165).
-/

namespace Sys2Proof.Machine

variable {s t : State} {p : Part} {i : Instr} {w : InstrWord} {op : HostOp}

/-! ### The operations, said once -/

/-- A step performs the host's next operation on the state with that operation taken off the script. -/
theorem step_next (h : step s = .next t) :
    ∃ e, e.loadOpen = s.env.loadOpen ∧ (s.setEnv e).perform s.nextOp.1 = .next t := by
  obtain ⟨e, hs, -, ho⟩ := s.nextOp_snd
  exact ⟨e, ho, hs ▸ h⟩

/-- A fetch answers the word at `PC`, unless `PC` is the last address (30_encoding R61). -/
theorem State.fetch_eq_some : s.fetch = some w ↔ s.pc ≠ 0xFFF#12 ∧ wordAtPc s = w := by
  rw [State.fetch_eq, show wordOfBytes (s.byteAt s.pc.toNat) (s.byteAt (s.pc.toNat + 1)) = wordAtPc s from rfl]
  split <;> simp [*]

/-- A load that answers a next state was open and fitted, and stores its bytes and closes the load (20_memory R47). -/
theorem State.loadProgram_next {bytes : List Byte} (h : s.loadProgram bytes = .next t) :
    s.env.loadOpen = true ∧ bytes.length ≤ memorySize - loadAddress ∧
      t = (s.storeBytes loadAddress bytes).setEnv { s.env with loadOpen := false } := by
  unfold State.loadProgram at h
  split at h
  · split at h
    · exact ⟨‹_›, ‹_›, (Host.Outcome.next.inj h).symm⟩
    · cases h
  · cases h

/-- A key event sets its flag, and completes the wait if it presses a released key while the core waits (45_input R121). -/
theorem State.setKey_cases (s : State) (k : Key) (pressed : Bool) :
    (s.mode = .awaitingKey ∧ pressed = true ∧ s.keyDown k = false ∧
      s.setKey k pressed = (s.setKeyFlag k pressed).completeWait k) ∨
    s.setKey k pressed = s.setKeyFlag k pressed := by
  unfold State.setKey
  split
  · rename_i hc
    obtain ⟨hm, hp, hk⟩ := hc
    exact .inl ⟨hm, hp, hk, rfl⟩
  · exact .inr rfl

/-- A step of the core keeps every part no instruction may change. -/
theorem State.coreStep_kept (h : s.coreStep = .next t) (hp : ∀ i, p ∉ mayChange i) : p.Kept s t := by
  obtain ⟨-, rfl⟩ | ⟨-, w, i, -, -, hx⟩ := State.coreStep_next h
  · exact .refl p t
  · exact exec_keepsOutside hx p (hp i)

/-! ### The parameters and the keys -/

theorem perform_cfg (h : s.perform op = .next t) : t.cfg = s.cfg := by
  cases op with
  | reset => exact Host.Outcome.next.inj h ▸ rfl
  | loadProgram bytes =>
    obtain ⟨-, -, rfl⟩ := State.loadProgram_next h
    rfl
  | step b =>
    have hk : Part.setup.Kept (s.beginOp (.step b)) t := State.coreStep_kept h setup_notMem_mayChange
    exact hk.1
  | tickTimers => exact Host.Outcome.next.inj h ▸ rfl
  | setKey k pressed =>
    obtain rfl := Host.Outcome.next.inj h
    obtain ⟨-, -, -, hk⟩ | hk := s.setKey_cases k pressed <;> rw [hk] <;> rfl

theorem perform_key (h : s.perform op = .next t) (hr : op ≠ .reset) (hk : ∀ k p, op ≠ .setKey k p) : t.key = s.key := by
  cases op with
  | reset => exact absurd rfl hr
  | loadProgram bytes =>
    obtain ⟨-, -, rfl⟩ := State.loadProgram_next h
    rfl
  | step b =>
    have hk : Part.keys.Kept (s.beginOp (.step b)) t := State.coreStep_kept h keys_notMem_mayChange
    exact hk
  | tickTimers => exact Host.Outcome.next.inj h ▸ rfl
  | setKey k pressed => exact absurd rfl (hk k pressed)

/-- Settles O50: each operation of the host keeps the parameters, and each but `reset` and `setKey` the keys. -/
theorem parametersAndKeysAreTheHosts : Obligations.ParametersAndKeysAreTheHosts := by
  intro s t h
  obtain ⟨e, -, h⟩ := step_next h
  refine ⟨(perform_cfg h :), fun hr hk q => ?_⟩
  rw [State.keyDown, perform_key h hr hk, State.setEnv_key, State.keyDown]

/-! ### `MODE` -/

/-- Only a `step` that runs `LD Vx, K` takes the core into the wait. -/
theorem perform_entersWait (h : s.perform op = .next t) (hs : s.mode = .running) (ht : t.mode = .awaitingKey) :
    (∃ b, op = .step b) ∧ s.pc ≠ 0xFFF#12 ∧ decode (wordAtPc s) = .ok (.ldVK t.waitX) := by
  have stays {P : Prop} (hm : t.mode = s.mode) : P := by simp [hm, hs] at ht
  cases op with
  | reset =>
    obtain rfl := Host.Outcome.next.inj h
    exact stays hs.symm
  | loadProgram bytes =>
    obtain ⟨-, -, rfl⟩ := State.loadProgram_next h
    exact stays rfl
  | step b =>
    obtain ⟨hm, -⟩ | ⟨-, w, i, hw, hi, hx⟩ := State.coreStep_next h
    · cases hs.symm.trans hm
    · obtain ⟨hpc, rfl⟩ := State.fetch_eq_some.1 hw
      obtain ⟨x, rfl, rfl⟩ | hk := exec_entersWait_or_keeps hx
      · exact ⟨⟨b, rfl⟩, hpc, hi⟩
      · exact stays hk.1
  | tickTimers => exact stays (Host.Outcome.next.inj h ▸ rfl)
  | setKey k pressed =>
    obtain rfl := Host.Outcome.next.inj h
    obtain ⟨hm, -⟩ | hk := s.setKey_cases k pressed
    · cases hs.symm.trans hm
    · exact stays (by rw [hk]; rfl)

/-- Only a reset or a press of a released key ends the wait. -/
theorem perform_endsWait (h : s.perform op = .next t) (hs : s.mode = .awaitingKey) (ht : t.mode = .running) :
    op = .reset ∨ ∃ k, op = .setKey k true ∧ s.keyDown k = false ∧ t.keyDown k = true := by
  have stays {P : Prop} (hm : t.mode = s.mode) : P := by simp [hm, hs] at ht
  cases op with
  | reset => exact .inl rfl
  | loadProgram bytes =>
    obtain ⟨-, -, rfl⟩ := State.loadProgram_next h
    exact stays rfl
  | step b =>
    obtain ⟨-, rfl⟩ | ⟨hm, -⟩ := State.coreStep_next h
    · exact stays rfl
    · cases hs.symm.trans hm
  | tickTimers => exact stays (Host.Outcome.next.inj h ▸ rfl)
  | setKey k pressed =>
    obtain rfl := Host.Outcome.next.inj h
    obtain ⟨-, rfl, hup, hk⟩ | hk := s.setKey_cases k pressed
    · refine .inr ⟨k, rfl, hup, ?_⟩
      rw [hk]
      simp [State.completeWait]
    · exact stays (by rw [hk]; rfl)

/-- Settles O49: the two changes of `MODE`, each read off the operation that makes it. -/
theorem modeChangesOnlyByWaitAndKey : Obligations.ModeChangesOnlyByWaitAndKey := by
  intro s t h
  obtain ⟨e, -, h⟩ := step_next h
  exact ⟨(perform_entersWait h :), (perform_endsWait h :)⟩

/-! ### The invariant -/

/-- The fetch reads memory at `PC` and nothing else. -/
theorem State.fetch_of_kept (hm : Part.memory.Kept s t) (hpc : t.pc = s.pc) : t.fetch = s.fetch := by
  have hb (a : Nat) : t.byteAt a = s.byteAt a := hm.same a
  rw [State.fetch_eq, State.fetch_eq, hpc, hb, hb]

/-- The invariant speaks of memory, the wait, `PC`, and a load that stays closed. -/
theorem State.Inv.of_kept (h : s.Inv) (hm : Part.memory.Kept s t) (hw : Part.wait.Kept s t) (hpc : t.pc = s.pc)
    (ho : s.env.loadOpen = false → t.env.loadOpen = false) : t.Inv := by
  obtain ⟨hwf, hc⟩ := h
  obtain ⟨hmode, hx⟩ := hw
  refine ⟨by rwa [hm.1, hm.2], fun ht => ?_⟩
  obtain ⟨hs, w, hf, hd⟩ := hc (hmode ▸ ht)
  exact ⟨ho hs, w, State.fetch_of_kept hm hpc ▸ hf, hx ▸ hd⟩

/-- A core that runs has nothing to wait for. -/
theorem State.Inv.of_running (hwf : Memory.wf s.cfg s.mem = true) (hm : s.mode = .running) : s.Inv :=
  ⟨hwf, fun ha => nomatch hm.symm.trans ha⟩

/-- While the load is open the core runs. -/
theorem State.Inv.running_of_loadOpen (h : s.Inv) (ho : s.env.loadOpen = true) : s.mode = .running := by
  cases hm : s.mode with
  | running => rfl
  | awaitingKey => cases ho.symm.trans (h.2 hm).1

/-- A block that fits is stored inside memory (42_index_memory R108). -/
theorem State.wf_writeBlock_of_blockFits {bytes : List Byte} {n : Nat} (h : Memory.wf s.cfg s.mem = true)
    (hb : s.blockFits n = true) (hl : bytes.length = n + 1) :
    Memory.wf s.cfg (Memory.writeBlock s.cfg s.mem (s.blockAddr 0) bytes) = true := by
  have hn : s.index.toNat + n ≤ 0xFFF := of_decide_eq_true hb
  exact Memory.wf_writeBlock bytes h (by simp only [State.blockAddr, memorySize]; omega)

/-- Every instruction keeps memory canonical: the two that store write a block they have checked. -/
theorem exec_wf (hwf : Memory.wf s.cfg s.mem = true) (h : exec i s = .next t) : Memory.wf t.cfg t.mem = true := by
  by_cases hi : Part.memory ∈ mayChange i
  · obtain ⟨x, rfl | rfl⟩ := memory_mem_mayChange.1 hi
    · obtain ⟨hb, rfl⟩ := execLdB_next h
      exact State.wf_writeBlock_of_blockFits hwf hb rfl
    · obtain ⟨hb, rfl⟩ := execLdMemV_next h
      rw [State.bumpIndex_eq]
      exact State.wf_writeBlock_of_blockFits hwf hb (s.regsUpTo_length x)
  · obtain ⟨hcfg, hmem⟩ := exec_keepsOutside h _ hi
    rwa [hcfg, hmem]

/-- Running the word at `PC` with the load closed keeps the invariant: an instruction that enters the wait is the one at
`PC`, and every other leaves the core running. -/
theorem exec_inv (hs : s.Inv) (hm : s.mode = .running) (ho : s.env.loadOpen = false) (hw : s.fetch = some w)
    (hd : decode w = .ok i) (h : exec i s = .next t) : t.Inv := by
  obtain ⟨x, rfl, rfl⟩ | hk := exec_entersWait_or_keeps h
  · exact ⟨hs.1, fun _ => ⟨ho, w, hw, hd⟩⟩
  · exact .of_running (exec_wf hs.1 h) (hk.1.trans hm)

/-- A step of the core, with the load closed, keeps the invariant. -/
theorem State.coreStep_inv (hs : s.Inv) (ho : s.env.loadOpen = false) (h : s.coreStep = .next t) : t.Inv := by
  obtain ⟨-, rfl⟩ | ⟨hm, w, i, hw, hd, hx⟩ := State.coreStep_next h
  · exact hs
  · exact exec_inv hs hm ho hw hd hx

/-- A change of the host's side that does not open the load keeps the invariant. -/
theorem State.Inv.setEnv (hs : s.Inv) {e : Env} (ho : s.env.loadOpen = false → e.loadOpen = false) : (s.setEnv e).Inv :=
  hs.of_kept ⟨rfl, rfl⟩ ⟨rfl, rfl⟩ rfl ho

/-- Every operation of the host keeps the invariant: a load is let through only while the core runs, and a key event
changes no memory. -/
theorem perform_inv (hs : s.Inv) (h : s.perform op = .next t) : t.Inv := by
  cases op with
  | reset =>
    obtain rfl := Host.Outcome.next.inj h
    exact .of_running (Memory.wf_nil _) rfl
  | loadProgram bytes =>
    obtain ⟨ho, hl, rfl⟩ := State.loadProgram_next h
    exact .of_running (Memory.wf_writeBlock bytes hs.1 (Nat.add_le_of_le_sub' (by decide) hl)) (hs.running_of_loadOpen ho)
  | step b => exact State.coreStep_inv (hs.setEnv fun _ => rfl) rfl h
  | tickTimers =>
    obtain rfl := Host.Outcome.next.inj h
    exact hs.of_kept ⟨rfl, rfl⟩ ⟨rfl, rfl⟩ rfl id
  | setKey k pressed =>
    obtain rfl := Host.Outcome.next.inj h
    obtain ⟨-, -, -, hk⟩ | hk := s.setKey_cases k pressed <;> rw [hk]
    · exact .of_running hs.1 rfl
    · exact hs.of_kept ⟨rfl, rfl⟩ ⟨rfl, rfl⟩ rfl id

/-- Settles O38: taking the next operation off the script keeps the invariant, and so does performing it. -/
theorem stepKeepsInvariant : Obligations.StepKeepsInvariant := by
  intro s t hs h
  obtain ⟨e, ho, h⟩ := step_next h
  exact perform_inv (hs.setEnv fun hc => ho.trans hc) h

end Sys2Proof.Machine
end

section
/-!
PROOFS. What memory reads as after a byte or a block is stored (20_memory R41, R42, R47, R52), and that the canonical form
determines the list (R40).
-/

namespace Sys2Proof.Machine

variable {s t : State} {m m' : Memory} {cfg : Config}

/-! ### The list behind memory -/

theorem Memory.find_cons (c : Host.Cell) (m : Memory) (a : Nat) :
    Memory.find (c :: m) a = if c.1 = a then some c.2 else Memory.find m a := rfl

theorem Memory.mem_of_find {a : Nat} {v : Byte} (h : Memory.find m a = some v) : (a, v) ∈ m := by
  induction m with
  | nil => cases h
  | cons c m ih =>
    rw [Memory.find_cons] at h
    split at h
    next hc =>
      obtain rfl : c = (a, v) := Prod.ext hc (Option.some.inj h)
      exact List.mem_cons_self
    next => exact List.mem_cons_of_mem c (ih h)

/-- In canonical form what an address reads as says whether it is listed, and with which byte. -/
theorem Memory.find_eq_of_wf (h : Memory.wf cfg m = true) (a : Nat) :
    Memory.find m a = if a < memorySize ∧ Memory.read cfg m a ≠ Memory.resetByte cfg a
      then some (Memory.read cfg m a) else none := by
  cases hf : Memory.find m a with
  | none => simp [Memory.read, hf]
  | some v =>
    have hv : a < memorySize ∧ v ≠ Memory.resetByte cfg a := ((Memory.wf_iff cfg m).1 h).2 _ (Memory.mem_of_find hf)
    have hr : Memory.read cfg m a = v := by simp [Memory.read, hf]
    rw [hr, if_pos hv]

theorem Memory.sortedFrom_cons {lo : Nat} {c : Host.Cell} :
    Memory.sortedFrom lo (c :: m) = true ↔ lo ≤ c.1 ∧ Memory.sortedFrom (c.1 + 1) m = true := by
  simp [Memory.sortedFrom]

/-- A rising list begins no later than another list whose first cell it lists too. -/
theorem Memory.head_le_of_find_eq {lo : Nat} {c d : Host.Cell} (h : Memory.sortedFrom lo (c :: m) = true)
    (hf : Memory.find (c :: m) d.1 = Memory.find (d :: m') d.1) : c.1 ≤ d.1 := by
  by_contra hlt
  have hn : Memory.find (c :: m) d.1 = none :=
    Memory.find_none_of_lt (Memory.sortedFrom_cons.2 ⟨le_rfl, (Memory.sortedFrom_cons.1 h).2⟩) (Nat.lt_of_not_le hlt)
  simp [hn, Memory.find_cons] at hf

/-- A list of rising addresses is determined by the cells found in it. -/
theorem Memory.eq_of_find_eq {lo lo' : Nat} (h : Memory.sortedFrom lo m = true) (h' : Memory.sortedFrom lo' m' = true)
    (hf : ∀ a, Memory.find m a = Memory.find m' a) : m = m' := by
  induction m generalizing lo lo' m' with
  | nil =>
    cases m' with
    | nil => rfl
    | cons d m' => simpa [Memory.find] using hf d.1
  | cons c m ih =>
    cases m' with
    | nil => simpa [Memory.find] using hf c.1
    | cons d m' =>
      have ha : c.1 = d.1 :=
        le_antisymm (Memory.head_le_of_find_eq h (hf d.1)) (Memory.head_le_of_find_eq h' (hf c.1).symm)
      have hv : c.2 = d.2 := by simpa [Memory.find_cons, ha] using hf c.1
      obtain rfl : c = d := Prod.ext ha hv
      obtain ⟨-, h⟩ := Memory.sortedFrom_cons.1 h
      obtain ⟨-, h'⟩ := Memory.sortedFrom_cons.1 h'
      refine congrArg (c :: ·) (ih h h' fun a => ?_)
      by_cases hc : c.1 = a
      · have hlt : a < c.1 + 1 := by omega
        rw [Memory.find_none_of_lt h hlt, Memory.find_none_of_lt h' hlt]
      · simpa [Memory.find_cons, hc] using hf a

/-- Settles O40: in canonical form the reads give the cells listed, and rising addresses leave one order for them. -/
theorem canonicalMemoryIsUnique : Obligations.CanonicalMemoryIsUnique := by
  intro cfg m m' h h' hr
  refine Memory.eq_of_find_eq ((Memory.wf_iff cfg m).1 h).1 ((Memory.wf_iff cfg m').1 h').1 fun a => ?_
  rw [Memory.find_eq_of_wf h, Memory.find_eq_of_wf h']
  by_cases ha : a < memorySize
  · rw [hr a ha]
  · simp [ha]

/-! ### Reads after a store -/

theorem State.byteAt_storeBytes_of_getElem? {bs : List Byte} {j : Nat} {b : Byte} (h : bs[j]? = some b) (s : State)
    (a : Nat) : (s.storeBytes a bs).byteAt (a + j) = b := by
  obtain ⟨hj, rfl⟩ := List.getElem?_eq_some_iff.1 h
  rw [State.byteAt_storeBytes, dif_pos ⟨Nat.le_add_right a j, by rwa [Nat.add_sub_cancel_left]⟩]
  simp only [Nat.add_sub_cancel_left]

theorem State.byteAt_storeBytes_outside {bs : List Byte} {a n : Nat} (h : n < a ∨ a + bs.length ≤ n) (s : State) :
    (s.storeBytes a bs).byteAt n = s.byteAt n := by
  rw [State.byteAt_storeBytes, dif_neg (by omega)]

/-! ### One byte -/

/-- A write is the store of a block of one byte. -/
theorem State.memWrite_eq_storeBytes {a : Nat} (ha : a ≤ 0xFFF) (v : Byte) :
    s.memWrite a v = some (s.storeBytes a [v]) :=
  State.memWrite_eq_some.2 ⟨ha, rfl⟩

theorem State.memRead_eq_none {a : Nat} (ha : 0xFFF < a) : s.memRead a = none :=
  Option.eq_none_iff_forall_ne_some.2 fun _ h => Nat.not_le_of_lt ha (State.memRead_eq_some.1 h).1

theorem State.memWrite_eq_none {a : Nat} (ha : 0xFFF < a) (v : Byte) : s.memWrite a v = none :=
  Option.eq_none_iff_forall_ne_some.2 fun _ h => Nat.not_le_of_lt ha (State.memWrite_eq_some.1 h).1

/-- Settles O54: the write stores a block of one byte, which is read where it stands and nowhere else. -/
theorem readAfterWrite : Obligations.ReadAfterWrite := by
  intro s a v
  refine ⟨fun ha => ?_, fun ha => ⟨State.memRead_eq_none ha, State.memWrite_eq_none ha v⟩⟩
  refine ⟨State.memRead_eq_some.2 ⟨ha, rfl⟩, s.storeBytes a [v], State.memWrite_eq_storeBytes ha v, ?_, ?_, rfl,
    (keepsOutside_storeBytes List.mem_cons_self s a [v]).onlyChanges⟩
  · exact State.memRead_eq_some.2 ⟨ha, State.byteAt_storeBytes_of_getElem? (j := 0) rfl s a⟩
  · intro b hb
    exact State.byteAt_storeBytes_outside (by simp only [List.length_singleton]; omega) s

/-! ### A load of the host -/

theorem keepsOutside_setEnv {ps : List Part} (hp : .setup ∈ ps) (s : State) (e : Env) : KeepsOutside ps s (s.setEnv e) :=
  keepsOutside_of_ne hp fun p hne => by cases p <;> simp [Part.Kept] at hne ⊢

/-- An open load stores the bytes at 0x200 and closes the load, if they fit. -/
theorem State.loadProgram_of_open (ho : s.env.loadOpen = true) (bytes : List Byte) :
    s.loadProgram bytes = if bytes.length ≤ 3584
      then .next ((s.storeBytes 0x200 bytes).setEnv { s.env with loadOpen := false })
      else .fault .programTooLarge :=
  if_pos ho

/-- Settles O34: the load stores one block at 0x200, and changes nothing beside it but the host's side. -/
theorem loadProgramCopiesOrRejects : Obligations.LoadProgramCopiesOrRejects := by
  intro s bytes ho
  have hload : s.perform (.loadProgram bytes) = _ := State.loadProgram_of_open ho bytes
  refine ⟨fun hl => ?_, fun hl => ?_⟩
  · rw [if_pos hl] at hload
    refine ⟨_, hload, fun j b hb => ?_, fun a ha => ?_, rfl, rfl, rfl, ?_⟩
    · exact State.byteAt_storeBytes_of_getElem? hb s 0x200
    · exact State.byteAt_storeBytes_outside ha s
    · exact ((keepsOutside_storeBytes List.mem_cons_self s _ _).trans
        (keepsOutside_setEnv (.tail _ List.mem_cons_self) _ _)).onlyChanges
  · rw [if_neg (Nat.not_le_of_lt hl)] at hload
    exact ⟨hload, rfl⟩

/-! ### A dump of registers -/

theorem State.regsUpTo_getElem? {x r : Reg} (h : r.val ≤ x.val) (s : State) :
    (s.regsUpTo x)[r.val]? = some (s.getV r) := by
  have hr : r.val < (s.regsUpTo x).length := by rw [State.regsUpTo_length]; omega
  rw [List.getElem?_eq_getElem hr, State.regsUpTo_getElem]

/-- After a dump the byte `I + r` is `V[r]` (42_index_memory R106). -/
theorem exec_ldMemV_byteAt {x r : Reg} (h : exec (.ldMemV x) s = .next t) (hr : r.val ≤ x.val) :
    t.byteAt (s.blockAddr r.val) = s.getV r := by
  obtain ⟨-, rfl⟩ := execLdMemV_next h
  rw [State.bumpIndex_eq]
  exact State.byteAt_storeBytes_of_getElem? (State.regsUpTo_getElem? hr s) s (s.blockAddr 0)

/-- Settles O55: the fetch reads the two bytes of the dump that stand at `PC`. -/
theorem storedBytesAreFetchedNext : Obligations.StoredBytesAreFetchedNext := by
  intro x s t r h hpc hle haddr r' hr'
  have hnext : s.blockAddr r'.val = t.pc.toNat + 1 := by rw [← haddr, hr']; rfl
  have hhi : t.byteAt t.pc.toNat = s.getV r := haddr ▸ exec_ldMemV_byteAt h (by omega)
  have hlo : t.byteAt (t.pc.toNat + 1) = s.getV r' := hnext ▸ exec_ldMemV_byteAt h (by omega)
  exact State.fetch_eq_some.2 ⟨hpc, by rw [wordAtPc, hhi, hlo]⟩

end Sys2Proof.Machine
end

section
/-!
PROOFS. The decoder and the encoder undo each other (30_encoding R62 to R66), and which words the decoder rejects (R68).
-/

namespace Sys2Proof

variable {w c m : InstrWord} {i : Instr} {r : OpcodeRow} {op n : BitVec 4} {nn : Byte}

/-! ### Decoding an encoding -/

/-- Decoding reads the fields of the instruction's format, and each reads what the encoder put there. -/
theorem decode_encode (h : i.WellFormed = true) : decode (encode i) = .ok i := by
  cases i with
  | cls | ret => rfl
  | jp | call | jpV0 | ldI | seImm | sneImm | ldImm | addImm | rnd | seReg | sneReg => simp [encode, decode]
  | ldReg | orReg | andReg | xorReg | addReg | subReg | shr | subn | shl => simp [encode, decode, decodeClass8]
  | skp | sknp => simp [encode, decode, decodeClassE]
  | addI | ldF | ldB | ldMemV | ldVMem | ldVK | ldVDt | ldDtV | ldStV => simp [encode, decode, decodeClassF]
  | drw x y n =>
    have hn : n % 16 = n := Nat.mod_eq_of_lt (of_decide_eq_true h)
    simp [encode, decode, hn]

/-- Settles O1, instruction by instruction within each format. -/
theorem decodeOfEncode : Obligations.DecodeOfEncode := fun _ => decode_encode

/-! ### What the decoder can answer -/

/-- An answer on `w` is faithful: an instruction is well formed and is written `w`, and a rejection names `w`. -/
def FaithfulTo (w : InstrWord) : Except DecodeError Instr → Prop
  | .ok i => i.WellFormed = true ∧ encode i = w
  | .error e => e = .unknownOpcode w

theorem FaithfulTo.error : FaithfulTo w (.error (.unknownOpcode w)) := rfl

theorem FaithfulTo.ite {p : Prop} [Decidable p] {d d' : Except DecodeError Instr} (h : p → FaithfulTo w d)
    (h' : FaithfulTo w d') : FaithfulTo w (if p then d else d') := by
  split
  · exact h ‹p›
  · exact h'

theorem fieldN_lt (w : InstrWord) : fieldN w < 16 := (w.extractLsb' 0 4).isLt

theorem ofNat_fieldN_toNat (w : InstrWord) : (BitVec.ofNat 4 (fieldN w)).toNat = fieldN w :=
  Nat.mod_eq_of_lt (fieldN_lt w)

/-- A word whose low byte is a sub-opcode is its other fields and that byte. -/
theorem eq_wordXB_of_fieldNN (hop : fieldOp w = op.toNat) (hnn : fieldNN w = nn) : wordXB op (fieldX w) nn = w :=
  hnn ▸ eq_wordXB w op hop

theorem decodeClass0_faithful (w : InstrWord) : FaithfulTo w (decodeClass0 w) :=
  .ite (fun h => ⟨rfl, h.symm⟩) <| .ite (fun h => ⟨rfl, h.symm⟩) .error

theorem decodeClass8_faithful (hop : fieldOp w = 0x8) : FaithfulTo w (decodeClass8 w) := by
  unfold decodeClass8
  split
  case h_10 => exact .error
  all_goals exact ⟨rfl, eq_wordXYN w _ _ hop ‹_›⟩

theorem decodeClassE_faithful (hop : fieldOp w = 0xE) : FaithfulTo w (decodeClassE w) :=
  have row {nn : Byte} : fieldNN w = nn → wordXB 0xE#4 (fieldX w) nn = w := eq_wordXB_of_fieldNN hop
  .ite (fun h => ⟨rfl, row h⟩) <| .ite (fun h => ⟨rfl, row h⟩) .error

theorem decodeClassF_faithful (hop : fieldOp w = 0xF) : FaithfulTo w (decodeClassF w) := by
  have row {nn : Byte} : fieldNN w = nn → wordXB 0xF#4 (fieldX w) nn = w := eq_wordXB_of_fieldNN hop
  unfold decodeClassF
  repeat refine .ite (fun h => ⟨rfl, row h⟩) ?_
  exact .error

/-- The decoder is faithful, class by class in the formats of 30_encoding R63. -/
theorem decode_faithful (w : InstrWord) : FaithfulTo w (decode w) := by
  unfold decode
  split
  case h_1 => exact decodeClass0_faithful w
  case h_9 hop => exact decodeClass8_faithful hop
  case h_15 hop => exact decodeClassE_faithful hop
  case h_16 hop => exact decodeClassF_faithful hop
  case h_2 hop | h_3 hop | h_11 hop | h_12 hop => exact ⟨rfl, eq_wordA w _ hop⟩
  case h_4 hop | h_5 hop | h_7 hop | h_8 hop | h_13 hop => exact ⟨rfl, eq_wordXB w _ hop⟩
  case h_6 hop | h_10 hop => exact .ite (fun hn => ⟨rfl, eq_wordXYN w _ 0x0#4 hop hn⟩) .error
  case h_14 hop => exact ⟨decide_eq_true (fieldN_lt w), eq_wordXYN w _ _ hop (ofNat_fieldN_toNat w).symm⟩
  case h_17 => exact .error

/-- Decoding is strict (30_encoding R65). -/
theorem decode_eq_ok : decode w = .ok i ↔ i.WellFormed = true ∧ encode i = w := by
  refine ⟨fun h => ?_, fun ⟨hi, hw⟩ => hw ▸ decode_encode hi⟩
  have hf := decode_faithful w
  rwa [h] at hf

/-- A word decodes to an instruction or is reported as unknown (30_encoding R68). -/
theorem decode_eq_unknown : decode w = .error (.unknownOpcode w) ↔ ∀ i, decode w ≠ .ok i := by
  have hf := decode_faithful w
  cases hd : decode w with
  | ok i => simp
  | error e =>
    rw [hd] at hf
    simp [show e = _ from hf]

/-- Settles O2: a faithful answer is an instruction that is written as the word. -/
theorem encodeOfDecode : Obligations.EncodeOfDecode := fun _ _ => decode_eq_ok.1

/-- Settles O5, by running the decoder on each word. -/
theorem sampleWordsDecode : Obligations.SampleWordsDecode :=
  ⟨rfl, rfl, rfl, rfl, rfl, rfl, rfl, rfl, rfl, rfl⟩

/-! ### The opcode table -/

/-- A mask that covers bits 15:12 fixes the opcode class. -/
theorem fieldOp_of_and (hm : m.extractLsb' 12 4 = 0xF#4) (h : w &&& m = c) : fieldOp w = fieldOp c := by
  rw [← h, fieldOp, fieldOp, BitVec.extractLsb'_and, hm, and_ones4]

theorem fieldN_of_and (hm : m.extractLsb' 0 4 = 0xF#4) (h : w &&& m = c) : fieldN w = fieldN c := by
  rw [← h, fieldN, fieldN, BitVec.extractLsb'_and, hm, and_ones4]

theorem fieldNN_of_and (hm : m.extractLsb' 0 8 = 0xFF#8) (h : w &&& m = c) : fieldNN w = fieldNN c := by
  rw [← h, fieldNN, fieldNN, BitVec.extractLsb'_and, hm, and_ones8]

/-- A word that matches the row is the encoding of an instruction of the row's name. -/
def SpellsRow (w : InstrWord) (r : OpcodeRow) : Prop :=
  r.matchesWord w = true → ∃ i : Instr, i.WellFormed = true ∧ encode i = w ∧ i.mnemonic = r.mnemonic

/-- To show it: name the instruction, made of the word's fields. -/
theorem spellsRow_of (i : Instr) (hi : i.WellFormed = true) (hn : i.mnemonic = r.mnemonic)
    (hw : w &&& r.mask = r.fixed → encode i = w) : SpellsRow w r :=
  fun h => ⟨i, hi, hw (of_decide_eq_true h), hn⟩

theorem wordA_of_and (hc : fieldOp c = op.toNat) (h : w &&& 0xF000#16 = c) : wordA op (fieldNNN w) = w :=
  eq_wordA w op ((fieldOp_of_and rfl h).trans hc)

theorem wordXB_of_and (hc : fieldOp c = op.toNat) (h : w &&& 0xF000#16 = c) : wordXB op (fieldX w) (fieldNN w) = w :=
  eq_wordXB w op ((fieldOp_of_and rfl h).trans hc)

theorem wordX_of_and (hc : fieldOp c = op.toNat) (hnn : fieldNN c = nn) (h : w &&& 0xF0FF#16 = c) :
    wordXB op (fieldX w) nn = w :=
  eq_wordXB_of_fieldNN ((fieldOp_of_and rfl h).trans hc) ((fieldNN_of_and rfl h).trans hnn)

theorem wordXY_of_and (hc : fieldOp c = op.toNat) (hn : fieldN c = n.toNat) (h : w &&& 0xF00F#16 = c) :
    wordXYN op (fieldX w) (fieldY w) n = w :=
  eq_wordXYN w op n ((fieldOp_of_and rfl h).trans hc) ((fieldN_of_and rfl h).trans hn)

theorem wordXYN_of_and (hc : fieldOp c = op.toNat) (h : w &&& 0xF000#16 = c) :
    wordXYN op (fieldX w) (fieldY w) (BitVec.ofNat 4 (fieldN w)) = w :=
  eq_wordXYN w op _ ((fieldOp_of_and rfl h).trans hc) (ofNat_fieldN_toNat w).symm

theorem spellsRow_controlFlow (w : InstrWord) : ∀ r ∈ rowsControlFlow, SpellsRow w r := by
  have whole : w &&& 0xFFFF#16 = w := BitVec.and_allOnes
  simp only [rowsControlFlow, List.forall_mem_cons, List.not_mem_nil, false_imp_iff, implies_true, and_true]
  exact ⟨
    spellsRow_of .cls rfl rfl fun h => (whole.symm.trans h).symm,
    spellsRow_of .ret rfl rfl fun h => (whole.symm.trans h).symm,
    spellsRow_of (.jp (fieldNNN w)) rfl rfl (wordA_of_and rfl),
    spellsRow_of (.call (fieldNNN w)) rfl rfl (wordA_of_and rfl),
    spellsRow_of (.seImm (fieldX w) (fieldNN w)) rfl rfl (wordXB_of_and rfl),
    spellsRow_of (.sneImm (fieldX w) (fieldNN w)) rfl rfl (wordXB_of_and rfl),
    spellsRow_of (.seReg (fieldX w) (fieldY w)) rfl rfl (wordXY_of_and rfl rfl),
    spellsRow_of (.sneReg (fieldX w) (fieldY w)) rfl rfl (wordXY_of_and rfl rfl),
    spellsRow_of (.jpV0 (fieldNNN w)) rfl rfl (wordA_of_and rfl)⟩

theorem spellsRow_registerOps (w : InstrWord) : ∀ r ∈ rowsRegisterOps, SpellsRow w r := by
  simp only [rowsRegisterOps, List.forall_mem_cons, List.not_mem_nil, false_imp_iff, implies_true, and_true]
  exact ⟨
    spellsRow_of (.ldImm (fieldX w) (fieldNN w)) rfl rfl (wordXB_of_and rfl),
    spellsRow_of (.addImm (fieldX w) (fieldNN w)) rfl rfl (wordXB_of_and rfl),
    spellsRow_of (.ldReg (fieldX w) (fieldY w)) rfl rfl (wordXY_of_and rfl rfl),
    spellsRow_of (.orReg (fieldX w) (fieldY w)) rfl rfl (wordXY_of_and rfl rfl),
    spellsRow_of (.andReg (fieldX w) (fieldY w)) rfl rfl (wordXY_of_and rfl rfl),
    spellsRow_of (.xorReg (fieldX w) (fieldY w)) rfl rfl (wordXY_of_and rfl rfl),
    spellsRow_of (.addReg (fieldX w) (fieldY w)) rfl rfl (wordXY_of_and rfl rfl),
    spellsRow_of (.subReg (fieldX w) (fieldY w)) rfl rfl (wordXY_of_and rfl rfl),
    spellsRow_of (.shr (fieldX w) (fieldY w)) rfl rfl (wordXY_of_and rfl rfl),
    spellsRow_of (.subn (fieldX w) (fieldY w)) rfl rfl (wordXY_of_and rfl rfl),
    spellsRow_of (.shl (fieldX w) (fieldY w)) rfl rfl (wordXY_of_and rfl rfl)⟩

theorem spellsRow_indexMemory (w : InstrWord) : ∀ r ∈ rowsIndexMemory, SpellsRow w r := by
  simp only [rowsIndexMemory, List.forall_mem_cons, List.not_mem_nil, false_imp_iff, implies_true, and_true]
  exact ⟨
    spellsRow_of (.ldI (fieldNNN w)) rfl rfl (wordA_of_and rfl),
    spellsRow_of (.addI (fieldX w)) rfl rfl (wordX_of_and rfl rfl),
    spellsRow_of (.ldF (fieldX w)) rfl rfl (wordX_of_and rfl rfl),
    spellsRow_of (.ldB (fieldX w)) rfl rfl (wordX_of_and rfl rfl),
    spellsRow_of (.ldMemV (fieldX w)) rfl rfl (wordX_of_and rfl rfl),
    spellsRow_of (.ldVMem (fieldX w)) rfl rfl (wordX_of_and rfl rfl)⟩

theorem spellsRow_devices (w : InstrWord) : ∀ r ∈ rowsDevices, SpellsRow w r := by
  simp only [rowsDevices, List.forall_mem_cons, List.not_mem_nil, false_imp_iff, implies_true, and_true]
  exact ⟨
    spellsRow_of (.rnd (fieldX w) (fieldNN w)) rfl rfl (wordXB_of_and rfl),
    spellsRow_of (.drw (fieldX w) (fieldY w) (fieldN w)) (decide_eq_true (fieldN_lt w)) rfl (wordXYN_of_and rfl),
    spellsRow_of (.skp (fieldX w)) rfl rfl (wordX_of_and rfl rfl),
    spellsRow_of (.sknp (fieldX w)) rfl rfl (wordX_of_and rfl rfl),
    spellsRow_of (.ldVK (fieldX w)) rfl rfl (wordX_of_and rfl rfl),
    spellsRow_of (.ldVDt (fieldX w)) rfl rfl (wordX_of_and rfl rfl),
    spellsRow_of (.ldDtV (fieldX w)) rfl rfl (wordX_of_and rfl rfl),
    spellsRow_of (.ldStV (fieldX w)) rfl rfl (wordX_of_and rfl rfl)⟩

theorem spellsRow_of_mem (w : InstrWord) (hr : r ∈ opcodeTable) : SpellsRow w r := by
  simp only [opcodeTable, List.mem_append, or_assoc] at hr
  obtain hr | hr | hr | hr := hr
  · exact spellsRow_controlFlow w r hr
  · exact spellsRow_registerOps w r hr
  · exact spellsRow_indexMemory w r hr
  · exact spellsRow_devices w r hr

/-- Every instruction's word lies in its own row. -/
theorem Laws.InRow.all : ∀ i : Instr, Statement i
  | .cls => cls | .ret => ret | .jp a => jp a | .call a => call a
  | .seImm x b => seImm x b | .sneImm x b => sneImm x b | .seReg x y => seReg x y | .sneReg x y => sneReg x y
  | .jpV0 a => jpV0 a | .ldImm x b => ldImm x b | .addImm x b => addImm x b
  | .ldReg x y => ldReg x y | .orReg x y => orReg x y | .andReg x y => andReg x y | .xorReg x y => xorReg x y
  | .addReg x y => addReg x y | .subReg x y => subReg x y | .shr x y => shr x y | .subn x y => subn x y
  | .shl x y => shl x y | .ldI a => ldI a | .addI x => addI x | .ldF x => ldF x | .ldB x => ldB x
  | .ldMemV x => ldMemV x | .ldVMem x => ldVMem x | .rnd x b => rnd x b | .drw x y n => drw x y n
  | .skp x => skp x | .sknp x => sknp x | .ldVK x => ldVK x | .ldVDt x => ldVDt x | .ldDtV x => ldDtV x
  | .ldStV x => ldStV x

/-- No two rows have one name. -/
theorem opcodeTable_mnemonic_nodup : (opcodeTable.map OpcodeRow.mnemonic).Nodup := by decide

theorem row_eq_of_mnemonic {r' : OpcodeRow} (hr : r ∈ opcodeTable) (hr' : r' ∈ opcodeTable)
    (h : r.mnemonic = r'.mnemonic) : r = r' :=
  List.inj_on_of_nodup_map opcodeTable_mnemonic_nodup hr hr' h

/-- A word matches the rows whose names its decoded instruction has. -/
theorem matchesWord_iff_decode (hr : r ∈ opcodeTable) :
    r.matchesWord w = true ↔ ∃ i, decode w = .ok i ∧ i.mnemonic = r.mnemonic := by
  constructor
  · intro h
    obtain ⟨i, hi, hw, hn⟩ := spellsRow_of_mem w hr h
    exact ⟨i, decode_eq_ok.2 ⟨hi, hw⟩, hn⟩
  · rintro ⟨i, hd, hn⟩
    obtain ⟨r', hr', hn', -, hm⟩ := Laws.InRow.all i
    obtain rfl := row_eq_of_mnemonic hr' hr (hn'.trans hn)
    rwa [(decode_eq_ok.1 hd).2] at hm

/-- Settles O3: rows and instructions correspond by name, and a word decodes to one instruction at most. -/
theorem decodeFollowsOpcodeTable : Obligations.DecodeFollowsOpcodeTable := by
  refine ⟨fun w r hr => matchesWord_iff_decode hr, fun w hn => decode_eq_unknown.2 fun i hd => ?_, ?_⟩
  · obtain ⟨r, hr, -, -, hm⟩ := Laws.InRow.all i
    rw [(decode_eq_ok.1 hd).2, hn r hr] at hm
    cases hm
  · intro w r r' hr hr' hm hm'
    obtain ⟨i, hd, hi⟩ := (matchesWord_iff_decode hr).1 hm
    obtain ⟨i', hd', hi'⟩ := (matchesWord_iff_decode hr').1 hm'
    cases hd.symm.trans hd'
    exact row_eq_of_mnemonic hr hr' (hi.symm.trans hi')

/-! ### The unknown words -/

/-- A class that tries a row before the rest rejects what fails the row's test and is rejected by the rest. -/
theorem ite_ok_eq_error {p : Prop} [Decidable p] {d : Except DecodeError Instr} {e : DecodeError} :
    (if p then .ok i else d) = .error e ↔ ¬p ∧ d = .error e := by
  split <;> simp [*]

theorem fieldNN_eq_iff : fieldNN w = nn ↔ w.toNat % 256 = nn.toNat := by
  rw [← BitVec.toNat_inj, fieldNN_toNat]

theorem decodeClass0_eq_unknown :
    decodeClass0 w = .error (.unknownOpcode w) ↔ w.toNat ≠ 0x00E0 ∧ w.toNat ≠ 0x00EE := by
  simp [decodeClass0, ite_ok_eq_error, ← BitVec.toNat_inj]

theorem decodeClass8_eq_unknown :
    decodeClass8 w = .error (.unknownOpcode w) ↔ 8 ≤ w.toNat % 16 ∧ w.toNat % 16 ≠ 0xE := by
  rw [← fieldN_eq]
  unfold decodeClass8
  split
  case h_10 =>
    have hlt := fieldN_lt w
    simp only [imp_false, true_iff] at *
    omega
  all_goals next hn => simp [hn]

theorem decodeClassE_eq_unknown :
    decodeClassE w = .error (.unknownOpcode w) ↔ w.toNat % 256 ≠ 0x9E ∧ w.toNat % 256 ≠ 0xA1 := by
  simp [decodeClassE, ite_ok_eq_error, fieldNN_eq_iff]

theorem decodeClassF_eq_unknown : decodeClassF w = .error (.unknownOpcode w) ↔
    w.toNat % 256 ∉ [0x07, 0x0A, 0x15, 0x18, 0x1E, 0x29, 0x33, 0x55, 0x65] := by
  simp [decodeClassF, ite_ok_eq_error, fieldNN_eq_iff]

/-- Settles O4: six classes have unknown words, each by its own sub-opcode. -/
theorem unknownWordsByClass : Obligations.UnknownWordsByClass := by
  intro w
  rw [← fieldOp_eq]
  have hn := fieldN_eq w
  unfold decode
  split
  case h_1 hop => simp [hop, decodeClass0_eq_unknown]
  case h_6 hop | h_10 hop => simp [hop, ← hn]
  case h_9 hop => simp [hop, decodeClass8_eq_unknown]
  case h_15 hop => simp [hop, decodeClassE_eq_unknown]
  case h_16 hop => simp [hop, decodeClassF_eq_unknown]
  case h_17 =>
    have hlt : fieldOp w < 16 := (w.extractLsb' 12 4).isLt
    simp only [imp_false] at *
    omega
  all_goals next hop => simp [hop]

end Sys2Proof
end

section
/-!
PROOFS. The step cycle: what a step fetches and decodes, what it reports of a word it cannot decode, and where an
instruction leaves `PC` (30_encoding R60, R61, R67, R68).
-/

namespace Sys2Proof.Machine

variable {s t : State} {w : InstrWord} {i : Instr} {e : ErrorRecord}

/-- A step that can be decoded runs the instruction, with `rand` supplied and the load closed. -/
theorem State.perform_step_exec {b : Byte} (hm : s.mode = .running) (hpc : s.pc ≠ 0xFFF#12)
    (hd : decode (wordAtPc s) = .ok i) :
    s.perform (.step b) = exec i (s.setEnv ⟨s.env.script, b, s.env.draws, false⟩) :=
  State.coreStep_exec hm (State.fetch_eq_some.2 ⟨hpc, rfl⟩) hd

/-- Settles O6: the operation is taken off the script, and the step runs the instruction at the unchanged `PC`. -/
theorem stepRunsDecodedInstruction : Obligations.StepRunsDecodedInstruction :=
  ⟨fun _ _ _ _ hs hm hpc hd => (step_of_script hs).trans (State.perform_step_exec hm hpc hd),
    fun _ _ hs hm hpc hd => (step_of_empty_script hs).trans (State.perform_step_exec hm hpc hd)⟩

theorem State.fetch_eq_none : s.fetch = none ↔ s.pc = 0xFFF#12 := by
  rw [State.fetch_eq]
  split <;> simp [*]

/-- Without a word the step reports the first address outside memory (30_encoding R61). -/
theorem State.coreStep_of_fetch_eq_none (hm : s.mode = .running) (hf : s.fetch = none) :
    s.coreStep = .fault (.addressOutOfRange ⟨none, s.pc, some 0x1000⟩) := by
  simp [State.coreStep, hm, hf, raiseFetch, raise_def, firstBadAddress]

/-- Settles O7: the fetch has a word everywhere but at the last address. -/
theorem fetchIsTwoBytesBigEndian : Obligations.FetchIsTwoBytesBigEndian := by
  refine ⟨fun s hpc => State.fetch_eq_some.2 ⟨hpc, rfl⟩, fun s hpc => ?_⟩
  have hf : s.fetch = none := State.fetch_eq_none.2 hpc
  exact ⟨hf, fun hm => hpc ▸ State.coreStep_of_fetch_eq_none hm hf⟩

/-- A word that decodes to nothing is reported with `PC` (30_encoding R68). -/
theorem State.coreStep_of_unknown (hm : s.mode = .running) (hf : s.fetch = some w)
    (hd : ∀ i, decode w ≠ .ok i) : s.coreStep = .fault (.unknownOpcode ⟨some w, s.pc, none⟩) := by
  simp [State.coreStep, State.runWord, hm, hf, decode_eq_unknown.2 hd, raiseUnknown, raise_def]

theorem State.afterFault_unknown_halt (h : s.cfg.unknownOpcodePolicy = .halt) :
    s.afterFault (.unknownOpcode e) = s := by
  simp [State.afterFault, h]

theorem State.afterFault_unknown_skip (h : s.cfg.unknownOpcodePolicy = .skip) :
    s.afterFault (.unknownOpcode e) = s.setPc (s.pc + 2) := by
  simp [State.afterFault, h]

/-- Settles O8: the record names the word and `PC`, and `SKIP` alone writes, to `PC`. -/
theorem unknownOpcodeReported : Obligations.UnknownOpcodeReported := by
  intro s hm hpc hd
  refine ⟨_, rfl, State.coreStep_of_unknown hm (State.fetch_eq_some.2 ⟨hpc, rfl⟩) hd,
    State.afterFault_unknown_halt, fun hp => ?_⟩
  rw [State.afterFault_unknown_skip hp]
  exact ⟨(keepsOutside_setPc [] s _).onlyChanges, rfl⟩

/-! ### `PC` after an instruction -/

/-- Settles O47: the control-flow instructions and the wait write `PC` as said, and all others end in `pc <- NEXT`. -/
theorem pcAfterEachInstruction : Obligations.PcAfterEachInstruction := by
  intro i s t h
  cases i with
  | ret =>
    obtain ⟨hs, rfl⟩ := execRet_next h
    exact ⟨⟨s.sp.val - 1, by omega⟩, (Nat.sub_add_cancel hs).symm, rfl⟩
  | call =>
    obtain ⟨-, rfl⟩ := execCall_next h
    rfl
  | jpV0 nnn =>
    obtain rfl := Host.Outcome.next.inj h
    exact BitVec.toNat_ofNat _ _
  | seImm | sneImm | seReg | sneReg | skp | sknp =>
    obtain rfl := Host.Outcome.next.inj h
    simp
  | ldB =>
    obtain ⟨-, rfl⟩ := execLdB_next h
    rfl
  | ldMemV =>
    obtain ⟨-, rfl⟩ := execLdMemV_next h
    simp [State.bumpIndex_eq]
  | ldVMem =>
    obtain ⟨-, rfl⟩ := execLdVMem_next h
    simp [State.bumpIndex_eq]
  | drw =>
    obtain ⟨-, rfl⟩ := execDrw_next h
    rfl
  | _ =>
    obtain rfl := Host.Outcome.next.inj h
    rfl

end Sys2Proof.Machine
end

section
/-!
PROOFS. Which register a shift does not depend on (30_encoding R69, 41_register_ops R99, R101).
-/

namespace Sys2Proof.Machine

variable {s : State} {x y : Reg}

theorem State.shiftOperand_vx (h : s.cfg.shiftSource = .vx) (x y : Reg) : s.shiftOperand x y = s.getV x := by
  simp [State.shiftOperand, h]

theorem State.shiftOperand_vy (h : s.cfg.shiftSource = .vy) (x y : Reg) : s.shiftOperand x y = s.getV y := by
  simp [State.shiftOperand, h]

theorem exec_shr (x y : Reg) (s : State) : exec (.shr x y) s =
    .next (s.storeFlagged x (bitOutRight (s.shiftOperand x y)) (shiftRight1 (s.shiftOperand x y))) := rfl

theorem exec_shl (x y : Reg) (s : State) : exec (.shl x y) s =
    .next (s.storeFlagged x (bitOutLeft (exactShl (s.shiftOperand x y))) (trunc8 (exactShl (s.shiftOperand x y)))) := rfl

/-- A word that encodes an instruction runs as it. -/
theorem State.runWord_encode {i : Instr} (h : i.WellFormed = true) (s : State) : s.runWord (encode i) = exec i s := by
  simp [State.runWord, decode_encode h]

/-- A result stored in `V[x]` leaves nothing of its old value. -/
theorem State.getV_storeFlagged_setV (s : State) (x r : Reg) (a b : Byte) (f : Bool) :
    ((s.setV x a).storeFlagged x f b).getV r = (s.storeFlagged x f b).getV r := by
  rw [State.getV_storeFlagged, State.getV_storeFlagged]
  by_cases hr : r = x
  · rw [if_pos hr, if_pos hr]
  · rw [State.getV_setV_of_ne hr]

/-- Settles O60: the shift reads one register, and stores over the old `V[x]`. -/
theorem shiftsIgnoreTheOtherRegister : Obligations.ShiftsIgnoreTheOtherRegister := by
  refine ⟨fun s x y y' hsrc => ?_, fun s x y a hsrc hne => ?_⟩
  · have hr : exec (.shr x y) s = exec (.shr x y') s := by simp only [exec_shr, State.shiftOperand_vx hsrc]
    have hl : exec (.shl x y) s = exec (.shl x y') s := by simp only [exec_shl, State.shiftOperand_vx hsrc]
    exact ⟨hr, hl, (State.runWord_encode (i := .shr x y) rfl s).trans hr,
      (State.runWord_encode (i := .shl x y) rfl s).trans hl⟩
  · have hop : (s.setV x a).shiftOperand x y = s.shiftOperand x y := by
      rw [State.shiftOperand_vy hsrc, State.shiftOperand_vy (s := s.setV x a) hsrc, State.getV_setV_of_ne hne.symm]
    have same (r : Reg) (f : Bool) (b : Byte) := s.getV_storeFlagged_setV x r a b f
    exact ⟨⟨_, _, exec_shr x y s, by rw [exec_shr, hop], same x _ _, same 15 _ _⟩,
      ⟨_, _, exec_shl x y s, by rw [exec_shl, hop], same x _ _, same 15 _ _⟩⟩

end Sys2Proof.Machine
end

section
/-!
PROOFS. The assembler's lines (30_encoding R69): which instruction or byte each selects.
-/

namespace Sys2Proof

variable {i j : Instr} {name : AsmName} {ops : List AsmOperand} {b : Byte}

/-! ### A line as one of its two meanings -/

theorem assemble_eq_instr : assemble name ops = some (.instr i) ↔ assembleInstr name ops = some i := by
  unfold assemble
  split
  · simp [assembleInstr]
  · simp

theorem assemble_eq_data : assemble name ops = some (.data b) ↔ name = .db ∧ ops = [.num b.toNat] := by
  unfold assemble
  split
  · simp [asmField_eq_some]
  · rename_i hdb
    simp only [Option.map_eq_some_iff, reduceCtorEq, and_false, exists_false, false_iff, not_and]
    exact fun hname hops => hdb _ hname hops

/-! ### Every instruction has a line -/

/-- An instruction's own operands fit their fields, so the form of its mnemonic accepts them. -/
theorem assembleInstr_line (h : i.WellFormed = true) : assembleInstr i.asmName i.asmOperands = some i := by
  cases i with
  | drw x y n =>
    have hn : n < 16 := of_decide_eq_true h
    exact if_pos hn
  | jp | call | jpV0 | ldI | seImm | sneImm | ldImm | addImm | rnd =>
    simp [assembleInstr, Instr.asmName, Instr.asmOperands, assembleJp, assembleCall, assembleLd, assembleSkip,
      assembleAdd, assembleRnd]
  | _ => rfl

/-! ### Every line selects one instruction -/

theorem map_asmField_eq_some {w n : Nat} {f : BitVec w → Instr} (h : (asmField w n).map f = some i) :
    ∃ v : BitVec w, n = v.toNat ∧ i = f v := by
  obtain ⟨v, hv, hi⟩ := Option.map_eq_some_iff.1 h
  exact ⟨v, asmField_eq_some.1 hv, hi.symm⟩

/-- A line of an instruction whose operands fit: its own, or, for a shift with `y = 0`, the one without `Vy`. -/
def IsLineOf (name : AsmName) (ops : List AsmOperand) (i : Instr) : Prop :=
  i.WellFormed = true ∧
  ((name = i.asmName ∧ ops = i.asmOperands) ∨
    (∃ x, i = .shr x 0 ∧ name = .shr ∧ ops = [.reg x]) ∨ (∃ x, i = .shl x 0 ∧ name = .shl ∧ ops = [.reg x]))

theorem isLineOf_self (h : i.WellFormed = true) : IsLineOf i.asmName i.asmOperands i := ⟨h, .inl ⟨rfl, rfl⟩⟩

theorem assembleBare_eq_some (h : assembleBare j ops = some i) : ops = [] ∧ i = j := by
  unfold assembleBare at h
  split at h
  · exact ⟨rfl, (Option.some.inj h).symm⟩
  · cases h

theorem assembleX_eq_some {f : Reg → Instr} (h : assembleX f ops = some i) : ∃ x, ops = [.reg x] ∧ i = f x := by
  unfold assembleX at h
  split at h
  · exact ⟨_, rfl, (Option.some.inj h).symm⟩
  · cases h

theorem assembleXY_eq_some {f : Reg → Reg → Instr} (h : assembleXY f ops = some i) :
    ∃ x y, ops = [.reg x, .reg y] ∧ i = f x y := by
  unfold assembleXY at h
  split at h
  · exact ⟨_, _, rfl, (Option.some.inj h).symm⟩
  · cases h

theorem assembleShift_eq_some {f : Reg → Instr} {g : Reg → Reg → Instr} (h : assembleShift f g ops = some i) :
    (∃ x, ops = [.reg x] ∧ i = f x) ∨ ∃ x y, ops = [.reg x, .reg y] ∧ i = g x y := by
  unfold assembleShift at h
  split at h
  · exact .inl ⟨_, rfl, (Option.some.inj h).symm⟩
  · exact .inr ⟨_, _, rfl, (Option.some.inj h).symm⟩
  · cases h

theorem assembleSkip_eq_some {f : Reg → Byte → Instr} {g : Reg → Reg → Instr} (h : assembleSkip f g ops = some i) :
    (∃ x nn, ops = [.reg x, .num nn.toNat] ∧ i = f x nn) ∨ ∃ x y, ops = [.reg x, .reg y] ∧ i = g x y := by
  unfold assembleSkip at h
  split at h
  · obtain ⟨nn, rfl, rfl⟩ := map_asmField_eq_some h
    exact .inl ⟨_, nn, rfl, rfl⟩
  · exact .inr ⟨_, _, rfl, (Option.some.inj h).symm⟩
  · cases h

theorem assembleJp_isLineOf (h : assembleJp ops = some i) : IsLineOf .jp ops i := by
  unfold assembleJp at h
  split at h
  · obtain ⟨nnn, rfl, rfl⟩ := map_asmField_eq_some h
    exact isLineOf_self rfl
  · split at h
    next hx =>
      obtain ⟨nnn, rfl, rfl⟩ := map_asmField_eq_some h
      exact hx ▸ isLineOf_self rfl
    next => cases h
  · cases h

theorem assembleCall_isLineOf (h : assembleCall ops = some i) : IsLineOf .call ops i := by
  unfold assembleCall at h
  split at h
  · obtain ⟨nnn, rfl, rfl⟩ := map_asmField_eq_some h
    exact isLineOf_self rfl
  · cases h

theorem assembleRnd_isLineOf (h : assembleRnd ops = some i) : IsLineOf .rnd ops i := by
  unfold assembleRnd at h
  split at h
  · obtain ⟨nn, rfl, rfl⟩ := map_asmField_eq_some h
    exact isLineOf_self rfl
  · cases h

theorem assembleDrw_isLineOf (h : assembleDrw ops = some i) : IsLineOf .drw ops i := by
  unfold assembleDrw at h
  split at h
  · split at h
    next hn =>
      cases h
      exact isLineOf_self (decide_eq_true hn)
    next => cases h
  · cases h

theorem assembleAdd_isLineOf (h : assembleAdd ops = some i) : IsLineOf .add ops i := by
  unfold assembleAdd at h
  split at h
  case h_1 =>
    obtain ⟨nn, rfl, rfl⟩ := map_asmField_eq_some h
    exact isLineOf_self rfl
  all_goals cases h
  all_goals exact isLineOf_self rfl

theorem assembleLd_isLineOf (h : assembleLd ops = some i) : IsLineOf .ld ops i := by
  unfold assembleLd at h
  split at h
  case h_1 | h_3 =>
    obtain ⟨v, rfl, rfl⟩ := map_asmField_eq_some h
    exact isLineOf_self rfl
  all_goals cases h
  all_goals exact isLineOf_self rfl

/-- A line that selects an instruction has its operands in range, and is one of that instruction's lines. -/
theorem assembleInstr_isLineOf (h : assembleInstr name ops = some i) : IsLineOf name ops i := by
  cases name with
  | cls | ret =>
    obtain ⟨rfl, rfl⟩ := assembleBare_eq_some h
    exact isLineOf_self rfl
  | skp | sknp =>
    obtain ⟨x, rfl, rfl⟩ := assembleX_eq_some h
    exact isLineOf_self rfl
  | or | and | xor | sub | subn =>
    obtain ⟨x, y, rfl, rfl⟩ := assembleXY_eq_some h
    exact isLineOf_self rfl
  | se | sne =>
    obtain ⟨x, nn, rfl, rfl⟩ | ⟨x, y, rfl, rfl⟩ := assembleSkip_eq_some h
    all_goals exact isLineOf_self rfl
  | shr =>
    obtain ⟨x, rfl, rfl⟩ | ⟨x, y, rfl, rfl⟩ := assembleShift_eq_some h
    · exact ⟨rfl, .inr (.inl ⟨x, rfl, rfl, rfl⟩)⟩
    · exact isLineOf_self rfl
  | shl =>
    obtain ⟨x, rfl, rfl⟩ | ⟨x, y, rfl, rfl⟩ := assembleShift_eq_some h
    · exact ⟨rfl, .inr (.inr ⟨x, rfl, rfl, rfl⟩)⟩
    · exact isLineOf_self rfl
  | jp => exact assembleJp_isLineOf h
  | call => exact assembleCall_isLineOf h
  | ld => exact assembleLd_isLineOf h
  | add => exact assembleAdd_isLineOf h
  | rnd => exact assembleRnd_isLineOf h
  | drw => exact assembleDrw_isLineOf h
  | db => cases h

/-- Settles O59: each mnemonic's forms accept exactly the lines of its instructions, and `DB` the bytes. -/
theorem assemblerLinesSelectOneInstruction : Obligations.AssemblerLinesSelectOneInstruction :=
  ⟨fun _ hi => assemble_eq_instr.2 (assembleInstr_line hi), fun _ => ⟨rfl, rfl⟩,
    fun _ => assemble_eq_data.2 ⟨rfl, rfl⟩, fun _ _ _ h => assembleInstr_isLineOf (assemble_eq_instr.1 h),
    fun _ _ _ => assemble_eq_data.1⟩

end Sys2Proof
end

section
/-!
PROOFS. The control-flow instructions (40_control_flow R80 to R88), with the stack of 10_state R14 said as: `SP` counts the
addresses held, so slot `j` is the free one when `j` are held, and the top one when `j + 1` are.
-/

namespace Sys2Proof.Machine

variable {s : State} {j : Fin 16} {f : Fault} {nnn : Addr}

/-! ### The stack -/

/-- A push with room writes the first free slot and counts it. -/
theorem State.push_of_sp_eq_castSucc (h : s.sp = j.castSucc) (a : Addr) :
    s.push a = some (s.setStack j.succ (s.stk.set j.val a j.isLt)) := by
  simp [State.push, h, Fin.succ]

/-- A pop with an address held answers the top slot and uncounts it. -/
theorem State.pop_of_sp_eq_succ (h : s.sp = j.succ) :
    s.pop = some (s.slot j, s.setStack j.castSucc s.stk) := by
  simp [State.pop, h, Fin.castSucc, Fin.castAdd, Fin.castLE]

theorem State.slot_setStack_set (p : Fin 17) (a : Addr) (s : State) (j k : Fin 16) :
    (s.setStack p (s.stk.set j.val a j.isLt)).slot k = if k = j then a else s.slot k := by
  simp only [State.slot, State.setStack, Vector.get_eq_getElem, Vector.getElem_set, Fin.ext_iff, eq_comm]

/-! ### `RET` and `CALL` -/

theorem exec_ret_of_sp_eq_zero (h : s.sp = 0) :
    exec .ret s = .fault (.stackUnderflow ⟨some 0x00EE#16, s.pc, none⟩) := by
  simp [exec, execRet, State.pop_eq_none.2 h, raiseIn, raise_def, encode]

theorem exec_ret_of_sp_eq_succ (h : s.sp = j.succ) :
    exec .ret s = .next ((s.setStack j.castSucc s.stk).setPc (s.slot j)) := by
  simp [exec, execRet, State.pop_of_sp_eq_succ h]

/-- The only error of `RET`. -/
theorem exec_ret_fault (h : exec .ret s = .fault f) : f = .stackUnderflow ⟨some 0x00EE#16, s.pc, none⟩ := by
  obtain h0 | ⟨j, hj⟩ := Fin.eq_zero_or_eq_succ s.sp
  · exact Host.Outcome.fault.inj (h.symm.trans (exec_ret_of_sp_eq_zero h0))
  · cases h.symm.trans (exec_ret_of_sp_eq_succ hj)

theorem exec_call_of_sp_eq_last (h : s.sp = 16) (nnn : Addr) :
    exec (.call nnn) s = .fault (.stackOverflow ⟨some (0x2#4 ++ nnn), s.pc, none⟩) := by
  simp [exec, execCall, State.push_eq_none.2 h, raiseIn, raise_def, encode, wordA]

theorem exec_call_of_sp_eq_castSucc (h : s.sp = j.castSucc) (nnn : Addr) :
    exec (.call nnn) s = .next ((s.setStack j.succ (s.stk.set j.val (s.pc + 2) j.isLt)).setPc nnn) := by
  simp [exec, execCall, State.push_of_sp_eq_castSucc h, State.next]

/-- The only error of `CALL`. -/
theorem exec_call_fault (h : exec (.call nnn) s = .fault f) :
    f = .stackOverflow ⟨some (0x2#4 ++ nnn), s.pc, none⟩ := by
  obtain ⟨j, hj⟩ | hl := Fin.eq_castSucc_or_eq_last s.sp
  · cases h.symm.trans (exec_call_of_sp_eq_castSucc hj nnn)
  · exact Host.Outcome.fault.inj (h.symm.trans (exec_call_of_sp_eq_last hl nnn))

/-- Settles O11: `SP` is 0, and the pop fails, or one more than the number of the top slot. -/
theorem retPopsOrUnderflows : Obligations.RetPopsOrUnderflows := by
  refine ⟨rfl, fun s => ⟨exec_ret_of_sp_eq_zero, fun j hj => ?_, fun f hf => exec_ret_fault hf ▸ rfl⟩⟩
  have h : exec .ret s = _ := exec_ret_of_sp_eq_succ (Fin.ext hj)
  exact ⟨_, h, rfl, rfl, fun _ => rfl, (exec_keepsOutside h).onlyChanges⟩

/-- Settles O13: `SP` is 16, and the push fails, or the number of the free slot that takes the return address. -/
theorem callPushesOrOverflows : Obligations.CallPushesOrOverflows := by
  refine fun nnn s => ⟨rfl, fun hl => exec_call_of_sp_eq_last hl nnn, fun j hj => ?_,
    fun f hf => exec_call_fault hf ▸ rfl⟩
  have h : exec (.call nnn) s = _ := exec_call_of_sp_eq_castSucc (Fin.ext hj) nnn
  refine ⟨_, h, ?_, fun k hk => ?_, rfl, rfl, (exec_keepsOutside h).onlyChanges⟩
  · exact (s.slot_setStack_set j.succ (s.pc + 2) j j).trans (if_pos rfl)
  · exact (s.slot_setStack_set j.succ (s.pc + 2) j k).trans (if_neg hk)

/-- Settles O56: the slot `CALL` fills is the one `RET` reads, and both change the stack alone. -/
theorem callThenReturn : Obligations.CallThenReturn := by
  intro nnn s hs
  obtain ⟨j, hj⟩ : ∃ j : Fin 16, s.sp = j.castSucc := (Fin.eq_castSucc_or_eq_last s.sp).resolve_right hs
  obtain ⟨-, -, call_pushes, -⟩ := callPushesOrOverflows nnn s
  obtain ⟨t, hcall, hslot, -, htop, -, -⟩ := call_pushes j (congrArg Fin.val hj)
  obtain ⟨-, ret_pops, -⟩ := retPopsOrUnderflows.2 t
  obtain ⟨u, hret, hsp, hpc, -, -⟩ := ret_pops j htop
  have hst : KeepsOutside [.stack] s t := exec_keepsOutside hcall
  have htu : KeepsOutside [.stack] t u := exec_keepsOutside hret
  exact ⟨t, u, hcall, hret, hpc.trans hslot, Fin.ext (hsp.trans (congrArg Fin.val hj).symm), (hst.trans htu).onlyChanges⟩

/-! ### The screen and the jumps -/

/-- Settles O10: the framebuffer becomes the blank one, and nothing else but `PC` is written. -/
theorem clsClearsTheScreen : Obligations.ClsClearsTheScreen := by
  refine ⟨rfl, fun s => ?_⟩
  have h : exec .cls s = .next (s.setFb Framebuffer.blank).advance := rfl
  exact ⟨_, h, Framebuffer.pixel_blank, rfl, (exec_keepsOutside h).onlyChanges⟩

/-- A write of `PC` changes nothing else. -/
theorem onlyChanges_setPc (s : State) (a : Addr) : OnlyChanges [] s (s.setPc a) := (keepsOutside_setPc [] s a).onlyChanges

/-- Settles O12: the jump is one write of `PC`. -/
theorem jpSetsPc : Obligations.JpSetsPc :=
  fun nnn s => ⟨rfl, s.setPc nnn, rfl, rfl, onlyChanges_setPc s nnn⟩

/-- The address `JP V0` reaches is the exact sum modulo 4096. -/
theorem State.jumpV0Target_toNat (s : State) (nnn : Addr) :
    (s.jumpV0Target nnn).toNat = (nnn.toNat + (s.getV 0).toNat) % 4096 :=
  BitVec.toNat_ofNat _ 12

/-- Settles O16: the jump is one write of `PC`, with the sum held in 12 bits. -/
theorem jpV0AddsV0 : Obligations.JpV0AddsV0 :=
  fun nnn s => ⟨rfl, s.setPc (s.jumpV0Target nnn), rfl, s.jumpV0Target_toNat nnn, onlyChanges_setPc s _⟩

/-! ### The skips -/

theorem State.skipIf_beq_pc (s : State) (a b : Byte) :
    (s.skipIf (a == b)).pc = if a = b then s.pc + 4#12 else s.pc + 2#12 := by
  simp

theorem State.skipIf_bne_pc (s : State) (a b : Byte) :
    (s.skipIf (a != b)).pc = if a = b then s.pc + 2#12 else s.pc + 4#12 := by
  simp [bne]

/-- An instruction that skips when two bytes are equal. -/
theorem exec_skipIf_beq {i : Instr} {a b : Byte} (h : exec i s = .next (s.skipIf (a == b))) :
    ∃ t, exec i s = .next t ∧ t.pc = (if a = b then s.pc + 4#12 else s.pc + 2#12) ∧ OnlyChanges [] s t :=
  ⟨_, h, s.skipIf_beq_pc a b, onlyChanges_setPc s _⟩

/-- An instruction that skips when two bytes differ. -/
theorem exec_skipIf_bne {i : Instr} {a b : Byte} (h : exec i s = .next (s.skipIf (a != b))) :
    ∃ t, exec i s = .next t ∧ t.pc = (if a = b then s.pc + 2#12 else s.pc + 4#12) ∧ OnlyChanges [] s t :=
  ⟨_, h, s.skipIf_bne_pc a b, onlyChanges_setPc s _⟩

/-- Settles O14: `SE` skips on equal bytes, `SNE` on different ones. -/
theorem skipsOnImmediate : Obligations.SkipsOnImmediate :=
  fun _ _ _ => ⟨rfl, rfl, exec_skipIf_beq rfl, exec_skipIf_bne rfl⟩

/-- Settles O15: the same of two registers, which may be one. -/
theorem skipsOnRegisters : Obligations.SkipsOnRegisters :=
  fun _ _ _ => ⟨rfl, rfl, exec_skipIf_beq rfl, exec_skipIf_bne rfl⟩

end Sys2Proof.Machine
end

section
/-!
PROOFS. The register operations (41_register_ops R91 to R101). One rule for the instructions that store a result in `Vx`, one
for those that store a flag in `VF` before it (R90), and the result and flag of each exact operation as numbers.
-/

namespace Sys2Proof.Machine

variable {s : State} {x : Reg}

/-! ### A result without a flag -/

theorem State.getV_setV_advance_self (s : State) (x : Reg) (b : Byte) : (s.setV x b).advance.getV x = b := by
  simp

/-- Storing in `Vx` and moving on changes no other register, and nothing but registers and `PC`. -/
theorem State.setV_advance_frame (s : State) (x : Reg) (b : Byte) :
    (∀ r, r ≠ x → (s.setV x b).advance.getV r = s.getV r) ∧ (s.setV x b).advance.pc = s.pc + 2#12 ∧
      OnlyChanges [.regs] s (s.setV x b).advance :=
  ⟨fun _ hr => State.getV_setV_of_ne hr s b, rfl, (keepsOutside_setV (.head _) s x b).advance.onlyChanges⟩

/-! ### A result after its flag -/

theorem State.getV_storeFlagged_self (s : State) (x : Reg) (f : Bool) (b : Byte) : (s.storeFlagged x f b).getV x = b := by
  rw [State.getV_storeFlagged, if_pos rfl]

/-- The flag stays in `VF` unless the result is stored over it (41_register_ops R90). -/
theorem State.getV_storeFlagged_vf (hx : x ≠ 15) (s : State) (f : Bool) (b : Byte) :
    (s.storeFlagged x f b).getV 15 = flagByte f := by
  rw [State.getV_storeFlagged, if_neg hx.symm]
  exact if_pos rfl

/-- Storing a flag and a result changes no register but `Vx` and `VF`, and nothing but registers and `PC`. -/
theorem State.storeFlagged_frame (s : State) (x : Reg) (f : Bool) (b : Byte) :
    (∀ r, r ≠ x → r ≠ 15 → (s.storeFlagged x f b).getV r = s.getV r) ∧ (s.storeFlagged x f b).pc = s.pc + 2#12 ∧
      OnlyChanges [.regs] s (s.storeFlagged x f b) :=
  ⟨fun _ hr hf => State.getV_storeFlagged_of_ne (not_or.2 ⟨hr, hf⟩) s f b, rfl,
    (keepsOutside_storeFlagged (.head _) s x f b).onlyChanges⟩

/-! ### The exact operations -/

theorem trunc8_exactSum_toNat (a b : Byte) : (trunc8 (exactSum a b)).toNat = (a.toNat + b.toNat) % 256 :=
  BitVec.toNat_ofNat _ 8

theorem flagByte_carryOut_exactSum (a b : Byte) :
    flagByte (carryOut (exactSum a b)) = if 255 < a.toNat + b.toNat then 1#8 else 0#8 := by
  simp [flagByte, carryOut, exactSum]

theorem truncDiff_exactDiff_toNat (a b : Byte) :
    (truncDiff (exactDiff a b)).toNat = (256 + a.toNat - b.toNat) % 256 := by
  have hb := b.isLt
  simp only [truncDiff, exactDiff, BitVec.toNat_ofInt]
  omega

theorem flagByte_noBorrow_exactDiff (a b : Byte) :
    flagByte (noBorrow (exactDiff a b)) = if b.toNat ≤ a.toNat then 1#8 else 0#8 := by
  simp [flagByte, noBorrow, exactDiff]

theorem shiftRight1_toNat (a : Byte) : (shiftRight1 a).toNat = a.toNat / 2 := by
  rw [shiftRight1, BitVec.toNat_ushiftRight, Nat.shiftRight_one]

theorem trunc8_exactShl_toNat (a : Byte) : (trunc8 (exactShl a)).toNat = 2 * a.toNat % 256 := by
  rw [trunc8, exactShl, BitVec.toNat_ofNat, Nat.shiftLeft_eq, Nat.mul_comm, Nat.pow_one]

theorem flagByte_toNat (f : Bool) : (flagByte f).toNat = f.toNat := by
  cases f <;> rfl

theorem flagByte_bitOutRight_toNat (a : Byte) : (flagByte (bitOutRight a)).toNat = a.toNat % 2 := by
  rw [flagByte_toNat, bitOutRight, BitVec.getLsbD, Nat.toNat_testBit, Nat.pow_zero, Nat.div_one]

/-- Bit 8 of the doubled byte is its bit 7. -/
theorem flagByte_bitOutLeft_exactShl_toNat (a : Byte) : (flagByte (bitOutLeft (exactShl a))).toNat = a.toNat / 128 := by
  have ha := a.isLt
  rw [flagByte_toNat, bitOutLeft, exactShl, Nat.toNat_testBit, Nat.shiftLeft_eq]
  omega

/-! ### The obligations -/

/-- Settles O17: the stored value is the source. -/
theorem loadsIntoRegister : Obligations.LoadsIntoRegister :=
  ⟨fun x nn s => ⟨rfl, _, rfl, s.getV_setV_advance_self x nn, s.setV_advance_frame x nn⟩,
    fun x y s => ⟨rfl, _, rfl, s.getV_setV_advance_self x _, s.setV_advance_frame x (s.getV y)⟩⟩

/-- Settles O18: the stored value is the truncated sum, and `VF` is a register like the others. -/
theorem addImmediateWrapsWithoutFlag : Obligations.AddImmediateWrapsWithoutFlag := by
  refine fun x nn s => ⟨rfl, _, rfl, ?_, s.setV_advance_frame x (trunc8 (exactSum (s.getV x) nn))⟩
  rw [State.getV_setV_advance_self, trunc8_exactSum_toNat]

/-- Settles O19: the stored value has the bits of the operation, and `VF` is a register like the others. -/
theorem logicBitwiseWithoutFlag : Obligations.LogicBitwiseWithoutFlag := by
  refine fun x y s => ⟨rfl, rfl, rfl,
    ⟨_, rfl, fun k _ => ?or, s.setV_advance_frame x (s.getV x ||| s.getV y)⟩,
    ⟨_, rfl, fun k _ => ?and, s.setV_advance_frame x (s.getV x &&& s.getV y)⟩,
    ⟨_, rfl, fun k _ => ?xor, s.setV_advance_frame x (s.getV x ^^^ s.getV y)⟩⟩
  case or => rw [State.getV_setV_advance_self, BitVec.getLsbD_or]
  case and => rw [State.getV_setV_advance_self, BitVec.getLsbD_and]
  case xor => rw [State.getV_setV_advance_self, BitVec.getLsbD_xor]

theorem exec_addReg (x y : Reg) (s : State) : exec (.addReg x y) s =
    .next (s.storeFlagged x (carryOut (exactSum (s.getV x) (s.getV y))) (trunc8 (exactSum (s.getV x) (s.getV y)))) := rfl

/-- Settles O20: the carry is stored in `VF`, then the sum in `Vx`. -/
theorem addRegistersSetsCarry : Obligations.AddRegistersSetsCarry := by
  refine fun x y s => ⟨rfl, _, exec_addReg x y s, ?sum, fun hx => ?carry, s.storeFlagged_frame x _ _⟩
  case sum => rw [State.getV_storeFlagged_self, trunc8_exactSum_toNat]
  case carry => rw [State.getV_storeFlagged_vf hx, flagByte_carryOut_exactSum]

/-- An instruction that subtracts `b` from `a` and stores no borrow in `VF`, then the difference in `Vx`. -/
theorem exec_storeFlagged_exactDiff {i : Instr} {a b : Byte}
    (h : exec i s = .next (s.storeFlagged x (noBorrow (exactDiff a b)) (truncDiff (exactDiff a b)))) :
    ∃ t, exec i s = .next t ∧ (t.getV x).toNat = (256 + a.toNat - b.toNat) % 256 ∧
      (x ≠ 15 → t.getV 15 = if b.toNat ≤ a.toNat then 1#8 else 0#8) ∧
      (∀ r, r ≠ x → r ≠ 15 → t.getV r = s.getV r) ∧ t.pc = s.pc + 2#12 ∧ OnlyChanges [.regs] s t := by
  refine ⟨_, h, ?diff, fun hx => ?flag, s.storeFlagged_frame x _ _⟩
  case diff => rw [State.getV_storeFlagged_self, truncDiff_exactDiff_toNat]
  case flag => rw [State.getV_storeFlagged_vf hx, flagByte_noBorrow_exactDiff]

/-- Settles O21: `SUB` and `SUBN` are one subtraction with its operands in either order. -/
theorem subtractsSetNoBorrow : Obligations.SubtractsSetNoBorrow :=
  fun _ _ _ => ⟨rfl, rfl, exec_storeFlagged_exactDiff rfl, exec_storeFlagged_exactDiff rfl⟩

/-- Settles O22: the shifts read one operand, whichever register `SHIFT_SOURCE` names, and store its bit out in `VF`, then
the shifted value in `Vx`. -/
theorem shiftsCaptureTheBitOut : Obligations.ShiftsCaptureTheBitOut := by
  intro x y s a hsrc
  obtain rfl : a = (s.shiftOperand x y).toNat := by
    obtain ⟨hvx, rfl⟩ | ⟨hvy, rfl⟩ := hsrc
    · rw [State.shiftOperand_vx hvx]
    · rw [State.shiftOperand_vy hvy]
  refine ⟨rfl, rfl,
    ⟨_, exec_shr x y s, ?half, fun hx => ?lowBit, s.storeFlagged_frame x _ _⟩,
    ⟨_, exec_shl x y s, ?double, fun hx => ?highBit, s.storeFlagged_frame x _ _⟩⟩
  case half => rw [State.getV_storeFlagged_self, shiftRight1_toNat]
  case lowBit => rw [State.getV_storeFlagged_vf hx, flagByte_bitOutRight_toNat]
  case double => rw [State.getV_storeFlagged_self, trunc8_exactShl_toNat]
  case highBit => rw [State.getV_storeFlagged_vf hx, flagByte_bitOutLeft_exactShl_toNat]

end Sys2Proof.Machine
end

section
/-!
PROOFS. The index register and the memory block at it (42_index_memory R102 to R107): one rule for the block check of R108,
one for the writers of `I`, and what `LOADSTORE_INCREMENTS_I` does to `I` after a dump or a load.
-/

namespace Sys2Proof.Machine

variable {s t : State} {x : Reg} {i : Instr} {n : Nat}

/-! ### The block check -/

theorem State.blockFits_iff : s.blockFits n = true ↔ s.index.toNat + n ≤ 0xFFF := decide_eq_true_iff

/-- An instruction under the block check answers its next state, or reports `AddressOutOfRange(0x1000)` with nothing
written (42_index_memory R108, 60_exceptions R133). -/
theorem exec_under_blockCheck (h : exec i s = if s.blockFits n then .next t else raiseBlock i s) :
    (s.index.toNat + n ≤ 0xFFF → exec i s = .next t) ∧
    (0xFFF < s.index.toNat + n → exec i s = .fault (.addressOutOfRange ⟨some (encode i), s.pc, some 0x1000⟩)) ∧
    (∀ f, exec i s = .fault f → s.afterFault f = s) := by
  by_cases hb : s.blockFits n = true
  · rw [if_pos hb] at h
    refine ⟨fun _ => h, fun hgt => ?_, fun f hf => ?_⟩
    · exact absurd (State.blockFits_iff.1 hb) (Nat.not_le_of_lt hgt)
    · cases h.symm.trans hf
  · rw [if_neg hb] at h
    refine ⟨fun hle => absurd (State.blockFits_iff.2 hle) hb, fun _ => h, fun f hf => ?_⟩
    obtain rfl := Host.Outcome.fault.inj (h.symm.trans hf)
    rfl

/-! ### The step of `I` after a dump or a load -/

@[simp] theorem State.bumpIndex_pc (s : State) (x : Reg) : (s.bumpIndex x).pc = s.pc := by
  rw [State.bumpIndex_eq, State.setIndex_pc]

@[simp] theorem State.bumpIndex_getV (s : State) (x r : Reg) : (s.bumpIndex x).getV r = s.getV r := by
  rw [State.bumpIndex_eq, State.setIndex_getV]

@[simp] theorem State.bumpIndex_byteAt (s : State) (x : Reg) (a : Nat) : (s.bumpIndex x).byteAt a = s.byteAt a := by
  rw [State.bumpIndex_eq, State.setIndex_byteAt]

/-- Stepping `I` and moving on leaves `I` or adds `x + 1` to it modulo 4096, as `LOADSTORE_INCREMENTS_I` says. -/
theorem State.bumpIndex_advance (s : State) (x : Reg) :
    (s.cfg.loadStoreIncrementsI = false → (s.bumpIndex x).advance.index = s.index) ∧
    (s.cfg.loadStoreIncrementsI = true →
      (s.bumpIndex x).advance.index.toNat = (s.index.toNat + x.val + 1) % 4096) ∧
    (s.bumpIndex x).advance.pc = s.pc + 2#12 := by
  refine ⟨fun off => ?_, fun on => ?_, by simp⟩
  · simp [State.bumpIndex_eq, off]
  · simp [State.bumpIndex_eq, on, Nat.add_assoc]

/-! ### `LD B, Vx` -/

theorem trunc8_toNat_of_lt {d : Nat} (h : d < 256) : (trunc8 d).toNat = d :=
  Nat.mod_eq_of_lt h

/-- A number stored as a byte of a block is read back, if it fits in a byte. -/
theorem State.byteAt_storeBytes_toNat {bs : List Byte} {j d : Nat} (hj : bs[j]? = some (trunc8 d)) (hd : d < 256)
    (s : State) (a : Nat) : ((s.storeBytes a bs).byteAt (a + j)).toNat = d := by
  rw [State.byteAt_storeBytes_of_getElem? hj, trunc8_toNat_of_lt hd]

/-- Settles O24: the store puts one block of three digits at `I`, each of which fits in a byte. -/
theorem bcdStoresThreeDigits : Obligations.BcdStoresThreeDigits := by
  intro x s
  obtain ⟨completes, fails, keeps⟩ := exec_under_blockCheck (i := .ldB x) (s := s) rfl
  refine ⟨rfl, fun hle => ⟨_, completes hle, ?hundreds, ?tens, ?ones, ?outside, rfl,
    (exec_keepsOutside (completes hle)).onlyChanges⟩, fails, keeps⟩
  have hv : (s.getV x).toNat < 256 := (s.getV x).isLt
  case hundreds => exact State.byteAt_storeBytes_toNat (j := 0) rfl (by omega) s _
  case tens => exact State.byteAt_storeBytes_toNat (j := 1) rfl (by omega) s _
  case ones => exact State.byteAt_storeBytes_toNat (j := 2) rfl (by omega) s _
  case outside =>
    rintro _ rfl b hb
    exact State.byteAt_storeBytes_outside (hb.imp_right Nat.succ_le_of_lt) s

/-! ### `LD [I], Vx` -/

/-- A dump changes no byte outside `I` to `I + x`. -/
theorem exec_ldMemV_byteAt_outside (h : exec (.ldMemV x) s = .next t) {b : Nat}
    (hb : b < s.blockAddr 0 ∨ s.blockAddr 0 + x.val < b) : t.byteAt b = s.byteAt b := by
  obtain ⟨-, rfl⟩ := execLdMemV_next h
  rw [State.advance_def, State.setPc_byteAt, State.bumpIndex_byteAt]
  exact State.byteAt_storeBytes_outside (by rw [State.regsUpTo_length]; omega) s

/-- Settles O25: the dump stores one block of `x + 1` registers at `I`, then moves `I` as the parameter says. -/
theorem dumpStoresRegisters : Obligations.DumpStoresRegisters := by
  intro x s
  obtain ⟨completes, fails, keeps⟩ := exec_under_blockCheck (i := .ldMemV x) (s := s) rfl
  refine ⟨rfl, fun hle => ?_, fails, keeps⟩
  have h := completes hle
  obtain ⟨same, moved, next⟩ := (s.storeBytes (s.blockAddr 0) (s.regsUpTo x)).bumpIndex_advance x
  refine ⟨_, h, fun r hr => exec_ldMemV_byteAt h hr, ?_, same, moved, next, (exec_keepsOutside h).onlyChanges⟩
  rintro _ rfl b hb
  exact exec_ldMemV_byteAt_outside h hb

/-! ### `LD Vx, [I]` -/

/-- The registers after a load: those up to `Vx` from the block at `I`, the others as before. -/
theorem exec_ldVMem_getV (h : exec (.ldVMem x) s = .next t) (r : Reg) :
    t.getV r = if r.val ≤ x.val then s.byteAt (s.blockAddr r.val) else s.getV r := by
  obtain ⟨-, rfl⟩ := execLdVMem_next h
  rw [State.advance_def, State.setPc_getV, State.bumpIndex_getV, State.getV_setRegs, State.regsLoaded_get]

/-- Settles O26: the load replaces the registers up to `Vx`, then moves `I` as the parameter says. -/
theorem loadReadsRegisters : Obligations.LoadReadsRegisters := by
  intro x s
  obtain ⟨completes, fails, keeps⟩ := exec_under_blockCheck (i := .ldVMem x) (s := s) rfl
  refine ⟨rfl, fun hle => ?_, fails, keeps⟩
  have h := completes hle
  obtain ⟨same, moved, next⟩ := (s.setRegs (s.regsLoaded x)).bumpIndex_advance x
  refine ⟨_, h, fun r hr => ?loaded, fun r hr => ?kept, same, moved, next, (exec_keepsOutside h).onlyChanges⟩
  case loaded => rw [exec_ldVMem_getV h, if_pos hr]
  case kept => rw [exec_ldVMem_getV h, if_neg (Nat.not_le_of_lt hr)]

/-! ### The writers of `I` -/

/-- Writing `I` and moving on changes nothing but `I` and `PC`. -/
theorem State.setIndex_advance_frame (s : State) (a : Addr) :
    (s.setIndex a).advance.pc = s.pc + 2#12 ∧ OnlyChanges [.index] s (s.setIndex a).advance :=
  ⟨rfl, (keepsOutside_setIndex (.head _) s a).advance.onlyChanges⟩

theorem State.indexPlus_toNat (s : State) (x : Reg) :
    (s.indexPlus x).toNat = (s.index.toNat + (s.getV x).toNat) % 4096 :=
  BitVec.toNat_ofNat _ 12

theorem State.lowNibble_val (s : State) (x : Reg) : (s.lowNibble x).val = (s.getV x).toNat % 16 := by
  simp [State.lowNibble]

/-- The font lies below 0x200, so the address of a glyph does not wrap (00_scope R5). -/
theorem glyphAddr_toNat (cfg : Config) (d : Fin 16) : (glyphAddr cfg d).toNat = cfg.fontBase.val + 5 * d.val :=
  Nat.mod_eq_of_lt (by omega)

/-- Settles O23: each of the three is one write of `I`, of the address its rule names. -/
theorem indexWritersSetI : Obligations.IndexWritersSetI := by
  refine ⟨fun nnn s => ⟨rfl, _, rfl, rfl, s.setIndex_advance_frame nnn⟩,
    fun x s => ⟨rfl, _, rfl, s.indexPlus_toNat x, s.setIndex_advance_frame (s.indexPlus x)⟩,
    fun x s => ⟨rfl, _, rfl, ?glyph, s.setIndex_advance_frame (glyphAddr s.cfg (s.lowNibble x))⟩⟩
  case glyph =>
    rw [← State.lowNibble_val]
    exact glyphAddr_toNat s.cfg (s.lowNibble x)

end Sys2Proof.Machine
end

section
/-!
PROOFS. The input `rand` (43_random R109, R110): what `RND` makes of it, and that no other instruction reads the host's side,
where `rand` stands (log entry 2).
-/

namespace Sys2Proof.Machine

variable {s t : State} {i : Instr}

/-! ### `RND` -/

/-- A byte whose bits lie within a mask is unchanged by the mask. -/
theorem and_eq_self_of_and_not_eq_zero {b m : Byte} (h : b &&& ~~~m = 0#8) : b &&& m = b := by
  have hsplit : (b &&& m) ||| (b &&& ~~~m) = b := by
    rw [← BitVec.and_or_distrib_left, BitVec.or_not_self, BitVec.and_allOnes]
  rwa [h, BitVec.or_zero] at hsplit

/-- Settles O27: the stored value is `rand` under the mask, and a byte within the mask is the result when `rand` is that byte. -/
theorem rndMasksTheRandomByte : Obligations.RndMasksTheRandomByte := by
  refine fun x nn s => ⟨rfl, ⟨_, rfl, s.getV_setV_advance_self x _, s.setV_advance_frame x _⟩, fun b hb => ?reached⟩
  case reached =>
    refine ⟨b, _, rfl, ?_⟩
    rw [State.getV_setV_advance_self]
    exact and_eq_self_of_and_not_eq_zero hb

/-! ### The host's side -/

/-- The step of `I` after a dump or a load is the same on any host's side. -/
theorem State.setEnv_bumpIndex_advance (s : State) (e : Env) (x : Reg) :
    ((s.setEnv e).bumpIndex x).advance = (s.bumpIndex x).advance.setEnv e := by
  rw [State.bumpIndex_eq, State.bumpIndex_eq]
  rfl

/-- No instruction but `RND` reads the host's side: replacing it before the instruction is replacing it after. -/
theorem exec_setEnv (hi : ∀ x nn, i ≠ .rnd x nn) (h : exec i s = .next t) (e : Env) :
    exec i (s.setEnv e) = .next (t.setEnv e) := by
  cases i with
  | rnd x nn => exact absurd rfl (hi x nn)
  | ret =>
    obtain ⟨hs, rfl⟩ := execRet_next h
    exact exec_ret_of_sp_eq_succ (j := ⟨s.sp.val - 1, by omega⟩) (Fin.ext (Nat.sub_add_cancel hs).symm)
  | call nnn =>
    obtain ⟨hs, rfl⟩ := execCall_next h
    exact exec_call_of_sp_eq_castSucc (s := s.setEnv e) (j := ⟨s.sp.val, hs⟩) rfl nnn
  | ldB x =>
    obtain ⟨hb, rfl⟩ := execLdB_next h
    exact if_pos hb
  | ldMemV x =>
    obtain ⟨hb, rfl⟩ := execLdMemV_next h
    have hbump := (s.storeBytes (s.blockAddr 0) (s.regsUpTo x)).setEnv_bumpIndex_advance e x
    exact (if_pos hb).trans (congrArg Host.Outcome.next hbump)
  | ldVMem x =>
    obtain ⟨hb, rfl⟩ := execLdVMem_next h
    have hbump := (s.setRegs (s.regsLoaded x)).setEnv_bumpIndex_advance e x
    exact (if_pos hb).trans (congrArg Host.Outcome.next hbump)
  | drw x y n =>
    obtain ⟨hb, rfl⟩ := execDrw_next h
    exact if_pos hb
  | _ =>
    obtain rfl := Host.Outcome.next.inj h
    rfl

/-- Settles O52: the host's side is `s`'s own in the next state, so changing `rand` there is changing it here. -/
theorem onlyRndReadsRand : Obligations.OnlyRndReadsRand := by
  intro i s t b hi h
  obtain ⟨-, henv⟩ : Part.setup.Kept s t := exec_keepsOutside h _ (setup_notMem_mayChange i)
  rw [henv]
  exact exec_setEnv hi h _

end Sys2Proof.Machine
end

section
/-!
PROOFS. The XOR-sprite engine (44_display R111, R113, R115). A draw inverts a set of pixels and collides exactly on those of
them that were set; draws of disjoint sets compose, and no two pixels of one sprite coincide, so a whole sprite is one such
draw.
-/

namespace Sys2Proof.Machine

variable {x0 y0 byte : Byte} {fb : Framebuffer} {acc acc' acc'' : Framebuffer × Bool} {r j k b : Nat}
  {f : Bool} {rows : List Byte} {row : Fin 32} {col : Fin 64} {p q u : Fin 32 → Fin 64 → Prop}

/-! ### Inverting a set of pixels -/

/-- From `acc` to `acc'` exactly the pixels of `p` are inverted, and `collided` is raised where one of them was set. -/
structure Inverts (p : Fin 32 → Fin 64 → Prop) (acc acc' : Framebuffer × Bool) : Prop where
  inverted : ∀ {row col}, p row col → Framebuffer.pixel acc'.1 row col = !Framebuffer.pixel acc.1 row col
  kept : ∀ {row col}, ¬p row col → Framebuffer.pixel acc'.1 row col = Framebuffer.pixel acc.1 row col
  collided : acc'.2 = true ↔ acc.2 = true ∨ ∃ row col, p row col ∧ Framebuffer.pixel acc.1 row col = true

theorem Inverts.of_empty (h : ∀ row col, ¬p row col) (acc : Framebuffer × Bool) : Inverts p acc acc where
  inverted hp := absurd hp (h _ _)
  kept _ := rfl
  collided := by simp [h]

/-- Two draws of disjoint sets are one draw of their union: the second finds its own pixels as they were before the first. -/
theorem Inverts.trans (h : Inverts p acc acc') (h' : Inverts q acc' acc'') (disjoint : ∀ row col, p row col → ¬q row col)
    (union : ∀ row col, u row col ↔ p row col ∨ q row col) : Inverts u acc acc'' where
  inverted {row col} hu := by
    obtain hp | hq := (union row col).1 hu
    · rw [h'.kept (disjoint row col hp), h.inverted hp]
    · rw [h'.inverted hq, h.kept fun hp => disjoint row col hp hq]
  kept {row col} hu := by
    obtain ⟨hp, hq⟩ := not_or.1 (mt (union row col).2 hu)
    rw [h'.kept hq, h.kept hp]
  collided := by
    have before : ∀ row col, q row col ∧ Framebuffer.pixel acc'.1 row col = true ↔
        q row col ∧ Framebuffer.pixel acc.1 row col = true :=
      fun row col => and_congr_right fun hq => by rw [h.kept fun hp => disjoint row col hp hq]
    simp only [h'.collided, h.collided, before, union, or_and_right, exists_or, or_assoc]

/-- Inverting twice the same pixels restores the framebuffer. -/
theorem Inverts.twice (h : Inverts p acc acc') (h' : Inverts p (acc'.1, f) acc'') : acc''.1 = acc.1 := by
  refine Framebuffer.ext fun row col => ?_
  by_cases hp : p row col
  · rw [h'.inverted hp, h.inverted hp, Bool.not_not]
  · rw [h'.kept hp, h.kept hp]

/-- `collided` says whether some pixel went from 1 to 0. -/
theorem Inverts.collided_iff_cleared (h : Inverts p (fb, false) acc) :
    acc.2 = true ↔ ∃ row col, Framebuffer.pixel fb row col = true ∧ Framebuffer.pixel acc.1 row col = false := by
  have cleared (row : Fin 32) (col : Fin 64) : p row col ∧ Framebuffer.pixel fb row col = true ↔
      Framebuffer.pixel fb row col = true ∧ Framebuffer.pixel acc.1 row col = false := by
    by_cases hp : p row col
    · simp [hp, h.inverted hp]
    · simp [hp, h.kept hp]
  simp only [h.collided, cleared, Bool.false_eq_true, false_or]

/-! ### The pixels of a sprite -/

/-- The pixel that bit `7 - b` of a byte drawn as sprite row `r` inverts, if that bit is 1. -/
def PixelLit (x0 y0 : Byte) (r : Nat) (byte : Byte) (b : Nat) (row : Fin 32) (col : Fin 64) : Prop :=
  row = spriteRow y0 r ∧ col = spriteCol x0 b ∧ spriteBit byte b = true

/-- The pixels the leftmost `k` bits of a byte drawn as sprite row `r` invert. -/
def RowLit (x0 y0 : Byte) (r : Nat) (byte : Byte) (k : Nat) (row : Fin 32) (col : Fin 64) : Prop :=
  ∃ b < k, PixelLit x0 y0 r byte b row col

/-- The pixels a list of bytes inverts, drawn from sprite row `r` on. -/
def SpriteLit (x0 y0 : Byte) (r : Nat) (rows : List Byte) (row : Fin 32) (col : Fin 64) : Prop :=
  ∃ j byte, rows[j]? = some byte ∧ RowLit x0 y0 (r + j) byte 8 row col

theorem rowLit_succ : RowLit x0 y0 r byte (k + 1) row col ↔
    RowLit x0 y0 r byte k row col ∨ PixelLit x0 y0 r byte k row col :=
  Nat.exists_lt_succ_right

theorem spriteLit_cons : SpriteLit x0 y0 r (byte :: rows) row col ↔
    RowLit x0 y0 r byte 8 row col ∨ SpriteLit x0 y0 (r + 1) rows row col := by
  unfold SpriteLit
  constructor
  · rintro ⟨_ | j, c, hj, hlit⟩
    · obtain rfl := Option.some.inj hj
      exact .inl hlit
    · exact .inr ⟨j, c, hj, by rwa [Nat.add_right_comm]⟩
  · rintro (hlit | ⟨j, c, hj, hlit⟩)
    · exact ⟨0, byte, rfl, hlit⟩
    · exact ⟨j + 1, c, hj, by rwa [Nat.add_right_comm] at hlit⟩

theorem spriteRow_eq_iff : spriteRow y0 j = spriteRow y0 k ↔ j % 32 = k % 32 := by
  simp only [spriteRow, Fin.ext_iff]
  omega

theorem spriteCol_eq_iff : spriteCol x0 j = spriteCol x0 k ↔ j % 64 = k % 64 := by
  simp only [spriteCol, Fin.ext_iff]
  omega

theorem not_pixelLit_of_rowLit (hk : k < 64) (h : RowLit x0 y0 r byte k row col) : ¬PixelLit x0 y0 r byte k row col := by
  obtain ⟨b, hb, -, rfl, -⟩ := h
  rintro ⟨-, hcol, -⟩
  have := spriteCol_eq_iff.1 hcol
  omega

theorem not_spriteLit_of_rowLit (hlen : rows.length < 32) (h : RowLit x0 y0 r byte k row col) :
    ¬SpriteLit x0 y0 (r + 1) rows row col := by
  obtain ⟨-, -, rfl, -⟩ := h
  rintro ⟨j, c, hj, -, -, hrow, -⟩
  obtain ⟨hlt, -⟩ := List.getElem?_eq_some_iff.1 hj
  have := spriteRow_eq_iff.1 hrow
  omega

/-- A sprite inverts only pixels where one of its bits lands. -/
theorem SpriteLit.exists_offsets (h : SpriteLit x0 y0 0 rows row col) :
    ∃ r < rows.length, ∃ b < 8, row = spriteRow y0 r ∧ col = spriteCol x0 b := by
  obtain ⟨j, c, hj, b, hb, hrow, hcol, -⟩ := h
  obtain ⟨hlt, -⟩ := List.getElem?_eq_some_iff.1 hj
  exact ⟨j, hlt, b, hb, by rwa [Nat.zero_add] at hrow, hcol⟩

/-- Where bit `7 - b` of row `r` lands, the sprite inverts the pixel exactly if that bit is 1: no other bit lands there. -/
theorem spriteLit_iff_spriteBit (hlen : rows.length ≤ 32) (hr : rows[r]? = some byte) (hb : b < 8) :
    SpriteLit x0 y0 0 rows (spriteRow y0 r) (spriteCol x0 b) ↔ spriteBit byte b = true := by
  obtain ⟨hlt, -⟩ := List.getElem?_eq_some_iff.1 hr
  constructor
  · rintro ⟨j, c, hj, b', hb', hrow, hcol, hbit⟩
    obtain ⟨hlt', -⟩ := List.getElem?_eq_some_iff.1 hj
    have hrow := spriteRow_eq_iff.1 hrow
    have hcol := spriteCol_eq_iff.1 hcol
    obtain rfl : r = j := by omega
    obtain rfl : b = b' := by omega
    obtain rfl := Option.some.inj (hr.symm.trans hj)
    exact hbit
  · exact fun hbit => ⟨r, byte, hr, b, hb, by rw [Nat.zero_add], rfl, hbit⟩

/-- Inverting a sprite's pixels xors each bit of the sprite into the pixel where it lands. -/
theorem Inverts.pixel_sprite (h : Inverts (SpriteLit x0 y0 0 rows) acc acc') (hlen : rows.length ≤ 32)
    (hr : rows[r]? = some byte) (hb : b < 8) :
    Framebuffer.pixel acc'.1 (spriteRow y0 r) (spriteCol x0 b) =
      (Framebuffer.pixel acc.1 (spriteRow y0 r) (spriteCol x0 b) ^^ spriteBit byte b) := by
  have hlit := spriteLit_iff_spriteBit (x0 := x0) (y0 := y0) hlen hr hb
  cases hbit : spriteBit byte b with
  | true => rw [h.inverted (hlit.2 hbit), Bool.xor_true]
  | false => rw [h.kept (mt hlit.1 (Bool.not_eq_true _ ▸ hbit)), Bool.xor_false]

/-! ### The loops of a draw -/

theorem drawPixel_inverts (x0 y0 : Byte) (r : Nat) (byte : Byte) (acc : Framebuffer × Bool) (b : Nat) :
    Inverts (PixelLit x0 y0 r byte b) acc (drawPixel x0 y0 r byte acc b) where
  inverted := by
    rintro row col ⟨rfl, rfl, hbit⟩
    simp [drawPixel_pixel, hbit]
  kept {row col} hp := by
    have hoff : (decide (row = spriteRow y0 r ∧ col = spriteCol x0 b) && spriteBit byte b) = false := by
      simpa [PixelLit] using hp
    rw [drawPixel_pixel, hoff, Bool.xor_false]
  collided := by
    simp [drawPixel_collided, PixelLit, and_comm]

/-- The first `k` turns of the inner loop. -/
theorem foldl_drawPixel_inverts (x0 y0 : Byte) (r : Nat) (byte : Byte) (acc : Framebuffer × Bool) (hk : k ≤ 64) :
    Inverts (RowLit x0 y0 r byte k) acc ((List.range k).foldl (drawPixel x0 y0 r byte) acc) := by
  induction k with
  | zero => exact .of_empty (fun _ _ ⟨_, hb, _⟩ => Nat.not_lt_zero _ hb) acc
  | succ k ih =>
    rw [List.range_succ, List.foldl_append]
    exact (ih (Nat.le_of_succ_le hk)).trans (drawPixel_inverts x0 y0 r byte _ k)
      (fun _ _ => not_pixelLit_of_rowLit hk) fun _ _ => rowLit_succ

theorem drawRow_inverts (x0 y0 : Byte) (r : Nat) (byte : Byte) (acc : Framebuffer × Bool) :
    Inverts (RowLit x0 y0 r byte 8) acc (drawRow x0 y0 r byte acc) :=
  foldl_drawPixel_inverts x0 y0 r byte acc (by decide)

theorem drawRows_inverts (x0 y0 : Byte) (r : Nat) (rows : List Byte) (acc : Framebuffer × Bool) (hlen : rows.length ≤ 32) :
    Inverts (SpriteLit x0 y0 r rows) acc (drawRows x0 y0 r rows acc) := by
  induction rows generalizing r acc with
  | nil => exact .of_empty (fun _ _ ⟨_, _, hj, _⟩ => nomatch hj) acc
  | cons byte rows ih =>
    exact (drawRow_inverts x0 y0 r byte acc).trans (ih (r + 1) _ (Nat.le_of_succ_le hlen))
      (fun _ _ => not_spriteLit_of_rowLit hlen) fun _ _ => spriteLit_cons

/-- A draw inverts the pixels of its sprite, each once. -/
theorem drawSprite_inverts (fb : Framebuffer) (x0 y0 : Byte) (hlen : rows.length ≤ 32) :
    Inverts (SpriteLit x0 y0 0 rows) (fb, false) (drawSprite fb x0 y0 rows) :=
  drawRows_inverts x0 y0 0 rows (fb, false) hlen

/-! ### Drawing twice -/

theorem exists_spriteBit_of_ne_zero (h : byte ≠ 0#8) : ∃ b < 8, spriteBit byte b = true := by
  by_contra hnone
  refine h (BitVec.eq_of_getLsbD_eq fun i hi => ?_)
  have hbit : ¬spriteBit byte (7 - i) = true := fun hbit => hnone ⟨7 - i, by omega, hbit⟩
  simpa [spriteBit, show 7 - (7 - i) = i by omega] using hbit

/-- Settles O53: both draws invert the same pixels, so on a clear area the first finds none of them set and the second all. -/
theorem drawingTwiceRestores : Obligations.DrawingTwiceRestores := by
  intro fb x0 y0 rows hrows
  have hlen : rows.length ≤ 32 := by omega
  have first := drawSprite_inverts fb x0 y0 hlen
  have second := drawSprite_inverts (drawSprite fb x0 y0 rows).1 x0 y0 hlen
  refine ⟨first.twice second, fun clear => ?_⟩
  have litClear : ∀ row col, SpriteLit x0 y0 0 rows row col → Framebuffer.pixel fb row col = false := by
    intro row col hlit
    obtain ⟨r, hr, b, hb, rfl, rfl⟩ := hlit.exists_offsets
    exact clear r b _ _ hr hb rfl rfl
  refine ⟨?noCollision, fun ⟨byte, hmem, hne⟩ => ?collision⟩
  case noCollision =>
    rw [← Bool.not_eq_true, first.collided]
    rintro (hfalse | ⟨row, col, hlit, hset⟩)
    · cases hfalse
    · cases (litClear row col hlit).symm.trans hset
  case collision =>
    obtain ⟨r, hr⟩ := List.getElem?_of_mem hmem
    obtain ⟨b, hb, hbit⟩ := exists_spriteBit_of_ne_zero hne
    have hlit := (spriteLit_iff_spriteBit (x0 := x0) (y0 := y0) hlen hr hb).2 hbit
    have hset : Framebuffer.pixel (drawSprite fb x0 y0 rows).1 (spriteRow y0 r) (spriteCol x0 b) = true := by
      rw [first.inverted hlit, litClear _ _ hlit, Bool.not_false]
    exact second.collided.2 (.inr ⟨_, _, hlit, hset⟩)

end Sys2Proof.Machine
end

section
/-!
PROOFS. `DRW Vx, Vy, n` (44_display R114): the block check, the draw, and the collision in `VF`.
-/

namespace Sys2Proof.Machine

variable {s t : State} {x y : Reg} {n : Nat}

/-- `DRW` completes where its `n` bytes lie in memory, `n = 0` always, and else reports `AddressOutOfRange(0x1000)` with
nothing written. -/
theorem exec_drw_checked (x y : Reg) (n : Nat) (s : State) :
    (n = 0 ∨ s.index.toNat + n - 1 ≤ 0xFFF → ∃ t, exec (.drw x y n) s = .next t) ∧
    (1 ≤ n ∧ 0xFFF < s.index.toNat + n - 1 →
      exec (.drw x y n) s = .fault (.addressOutOfRange ⟨some (encode (.drw x y n)), s.pc, some 0x1000⟩)) ∧
    (∀ f, exec (.drw x y n) s = .fault f → s.afterFault f = s) := by
  cases n with
  | zero => exact ⟨fun _ => ⟨_, rfl⟩, fun h => absurd h.1 (Nat.not_succ_le_zero 0), fun _ hf => nomatch hf⟩
  | succ m =>
    obtain ⟨completes, fails, keeps⟩ := exec_under_blockCheck (i := .drw x y (m + 1)) (s := s) (n := m) rfl
    exact ⟨fun h => ⟨_, completes (by omega)⟩, fun h => fails (by omega), keeps⟩

theorem flagByte_eq_zero_or_one (f : Bool) : flagByte f = 0#8 ∨ flagByte f = 1#8 := by
  cases f <;> decide

theorem flagByte_eq_one_iff {f : Bool} : flagByte f = 1#8 ↔ f = true := by
  cases f <;> decide

theorem State.bytesAtIndex_getElem?_of_lt {r : Nat} (hr : r < n) (s : State) :
    (s.bytesAtIndex n)[r]? = some (s.byteAt (s.blockAddr r)) := by
  have hlt : r < (s.bytesAtIndex n).length := by rwa [State.bytesAtIndex_length]
  rw [List.getElem?_eq_getElem hlt, State.bytesAtIndex_getElem]

/-- `DRW` inverts the pixels of the sprite at `I` and leaves the collision in `VF`. -/
theorem exec_drw_inverts (hn : n ≤ 32) (h : exec (.drw x y n) s = .next t) :
    ∃ c, Inverts (SpriteLit (s.getV x) (s.getV y) 0 (s.bytesAtIndex n)) (s.fb, false) (t.fb, c) ∧
      t.getV 15 = flagByte c := by
  obtain ⟨-, rfl⟩ := execDrw_next h
  have hlen : (s.bytesAtIndex n).length ≤ 32 := by rwa [State.bytesAtIndex_length]
  exact ⟨_, drawSprite_inverts s.fb (s.getV x) (s.getV y) hlen, State.getV_setV_advance_self _ vf _⟩

theorem exec_drw_pc (h : exec (.drw x y n) s = .next t) : t.pc = s.pc + 2#12 := by
  obtain ⟨-, rfl⟩ := execDrw_next h
  rfl

/-- Settles O28: the bytes at `I` are one sprite of at most 15 rows, whose draw xors each bit where it lands and collides
exactly when a pixel is cleared. -/
theorem drwXorsTheSprite : Obligations.DrwXorsTheSprite := by
  intro x y n s hn
  obtain ⟨completes, fails, keeps⟩ := exec_drw_checked x y n s
  refine ⟨rfl, fails, fun hfits => ?_, keeps⟩
  obtain ⟨t, h⟩ := completes hfits
  obtain ⟨c, draw, hflag⟩ := exec_drw_inverts (by omega) h
  have hlen : (s.bytesAtIndex n).length = n := s.bytesAtIndex_length n
  refine ⟨t, h, ?inside, ?outside, ?flag, ?collision, fun r => exec_getV_of_not_mayWriteReg h, exec_drw_pc h,
    (exec_keepsOutside h).onlyChanges⟩
  case inside =>
    intro r b row col hr hb hrow hcol
    obtain rfl : row = spriteRow (s.getV y) r := Fin.ext hrow
    obtain rfl : col = spriteCol (s.getV x) b := Fin.ext hcol
    exact draw.pixel_sprite (by omega) (State.bytesAtIndex_getElem?_of_lt hr s) hb
  case outside =>
    intro row col hout
    refine draw.kept fun hlit => ?_
    obtain ⟨r, hr, b, hb, rfl, rfl⟩ := hlit.exists_offsets
    exact hout r b (hlen ▸ hr) hb ⟨rfl, rfl⟩
  case flag =>
    rw [hflag]
    exact flagByte_eq_zero_or_one c
  case collision =>
    rw [hflag, flagByte_eq_one_iff]
    exact draw.collided_iff_cleared

end Sys2Proof.Machine
end

section
/-!
PROOFS. The keypad (45_input R117 to R123): the key event and the wait it may end, a waiting step, and the instructions that
test a key or wait for one.
-/

namespace Sys2Proof.Machine

variable {s : State} {k : Key} {pressed : Bool}

/-! ### A key event -/

theorem keepsOutside_setKeyFlag {ps : List Part} (hp : .keys ∈ ps) (s : State) (k : Key) (b : Bool) :
    KeepsOutside ps s (s.setKeyFlag k b) :=
  keepsOutside_of_ne hp fun p hne => by cases p <;> simp [Part.Kept] at hne ⊢

@[simp] theorem State.completeWait_keyDown (s : State) (k q : Key) : (s.completeWait k).keyDown q = s.keyDown q := rfl

/-- The end of a wait writes the key's number to `V[WAITX]`, which holds it unwrapped. -/
theorem State.completeWait_getV_waitX_toNat (s : State) (k : Key) : ((s.completeWait k).getV s.waitX).toNat = k.val := by
  have hk : k.val < 256 := by omega
  simp [State.completeWait, hk]

theorem State.completeWait_getV_of_ne {r : Reg} (hr : r ≠ s.waitX) (k : Key) : (s.completeWait k).getV r = s.getV r :=
  State.getV_setV_of_ne hr s _

theorem keepsOutside_completeWait {ps : List Part} (hr : .regs ∈ ps) (hw : .wait ∈ ps) (s : State) (k : Key) :
    KeepsOutside ps s (s.completeWait k) :=
  (keepsOutside_setV hr s _ _).advance.trans (keepsOutside_setMode hw _ _)

/-- A press transition in the wait: the core waits, and a key that was up is pressed (45_input R121). -/
theorem State.setKey_of_endsWait (h : s.mode = .awaitingKey ∧ pressed = true ∧ s.keyDown k = false) :
    s.setKey k pressed = (s.setKeyFlag k pressed).completeWait k :=
  if_pos h

theorem State.setKey_of_not_endsWait (h : ¬(s.mode = .awaitingKey ∧ pressed = true ∧ s.keyDown k = false)) :
    s.setKey k pressed = s.setKeyFlag k pressed :=
  if_neg h

/-- A key event sets its own flag, whether or not it ends a wait. -/
theorem State.keyDown_setKey (s : State) (k q : Key) (pressed : Bool) :
    (s.setKey k pressed).keyDown q = if q = k then pressed else s.keyDown q := by
  obtain ⟨-, -, -, hset⟩ | hset := s.setKey_cases k pressed <;> simp [hset]

/-- No operation but a reset and a key event changes a flag. -/
theorem perform_keyDown {op : HostOp} {u : State} (hr : op ≠ .reset) (hk : ∀ q p, op ≠ .setKey q p)
    (h : s.perform op = .next u) (q : Key) : u.keyDown q = s.keyDown q := by
  rw [State.keyDown, perform_key h hr hk, State.keyDown]

/-- Settles O32: the event writes one flag, and completes the wait exactly on a press transition. -/
theorem setKeySetsOneFlagAndEndsAWait : Obligations.SetKeySetsOneFlagAndEndsAWait := by
  intro s k pressed
  refine ⟨s.setKey k pressed, rfl, ?own, fun q hq => ?others, fun h => ?ends, fun h => ?goesOn,
    fun op u hr hk => perform_keyDown hr hk⟩
  case own => rw [State.keyDown_setKey, if_pos rfl]
  case others => rw [State.keyDown_setKey, if_neg hq]
  case ends =>
    rw [State.setKey_of_endsWait h]
    have hkept : KeepsOutside [.keys, .regs, .wait] s ((s.setKeyFlag k pressed).completeWait k) :=
      (keepsOutside_setKeyFlag (by decide) s k pressed).trans (keepsOutside_completeWait (by decide) (by decide) _ k)
    exact ⟨(s.setKeyFlag k pressed).completeWait_getV_waitX_toNat k,
      fun r hr => (s.setKeyFlag k pressed).completeWait_getV_of_ne hr k, rfl, rfl, rfl, hkept.onlyChanges⟩
  case goesOn =>
    rw [State.setKey_of_not_endsWait h]
    exact ⟨rfl, (keepsOutside_setKeyFlag (.head _) s k pressed).onlyChanges⟩

/-! ### A step and a tick in the wait -/

theorem State.coreStep_of_awaitingKey (hm : s.mode = .awaitingKey) : s.coreStep = .next s := by
  simp [State.coreStep, hm]

/-- A counter goes down by one and stops at 0, as truncated subtraction does (60_exceptions R145). -/
theorem countDown_toNat (b : Byte) : (countDown b).toNat = b.toNat - 1 := by
  unfold countDown
  split
  · simp [*]
  · bv_omega

/-- Settles O9: a waiting step leaves all but the host's side, which the script drives, and a tick counts in any mode. -/
theorem waitingStepChangesNothing : Obligations.WaitingStepChangesNothing := by
  intro s hm
  refine ⟨State.coreStep_of_awaitingKey hm, fun rand rest hs => ?step, fun rest hs => ?tick⟩
  case step =>
    rw [step_of_script hs]
    exact ⟨s.setEnv ⟨rest, rand, s.env.draws, false⟩, State.coreStep_of_awaitingKey hm,
      (keepsOutside_setEnv (.head _) s _).onlyChanges, rfl, rfl, rfl⟩
  case tick =>
    rw [step_of_script hs]
    exact ⟨_, rfl, hm, countDown_toNat s.dt, countDown_toNat s.st⟩

/-! ### The instructions -/

theorem State.skipIf_pc (s : State) (c : Bool) : (s.skipIf c).pc = if c = true then s.pc + 4#12 else s.pc + 2#12 := rfl

theorem State.skipIf_not_pc (s : State) (c : Bool) :
    (s.skipIf (!c)).pc = if c = true then s.pc + 2#12 else s.pc + 4#12 := by
  cases c <;> rfl

/-- Settles O29: the key tested is the low 4 bits of `Vx`, and each of the two is one write of `PC`. -/
theorem keySkipsTestTheFlag : Obligations.KeySkipsTestTheFlag := by
  intro x s k hk
  obtain rfl : k = s.lowNibble x := Fin.ext (hk.trans (s.lowNibble_val x).symm)
  exact ⟨rfl, rfl, ⟨_, rfl, s.skipIf_pc _, onlyChanges_setPc s _⟩, ⟨_, rfl, s.skipIf_not_pc _, onlyChanges_setPc s _⟩⟩

/-- Settles O30: the instruction writes `WAITX` and `MODE` whatever the keys are, and leaves `PC` to the end of the wait. -/
theorem ldKEntersTheWait : Obligations.LdKEntersTheWait := by
  intro x s
  have h : exec (.ldVK x) s = .next ((s.setWaitX x).setMode .awaitingKey) := rfl
  exact ⟨rfl, _, h, rfl, rfl, rfl, (exec_keepsOutside h).onlyChanges⟩

end Sys2Proof.Machine
end

section
/-!
PROOFS. The timers (46_timers R124 to R127): the three copies between a register and a timer, and what `isSoundActive` says of
`ST` after the two operations that write it by a rule (R126, 60_exceptions R145).
-/

namespace Sys2Proof.Machine

/-! ### The copies -/

/-- Writing `DT` and moving on changes nothing but `DT` and `PC`. -/
theorem State.setDelay_advance_frame (s : State) (b : Byte) :
    (s.setDelay b).advance.pc = s.pc + 2#12 ∧ OnlyChanges [.delay] s (s.setDelay b).advance :=
  ⟨rfl, (keepsOutside_setDelay (.head _) s b).advance.onlyChanges⟩

/-- Writing `ST` and moving on changes nothing but `ST` and `PC`. -/
theorem State.setSound_advance_frame (s : State) (b : Byte) :
    (s.setSound b).advance.pc = s.pc + 2#12 ∧ OnlyChanges [.sound] s (s.setSound b).advance :=
  ⟨rfl, (keepsOutside_setSound (.head _) s b).advance.onlyChanges⟩

/-- Settles O31: each of the three is one write, of the source's value, before the move of `PC`. -/
theorem timerInstructionsCopy : Obligations.TimerInstructionsCopy :=
  fun x s => ⟨rfl, rfl, rfl,
    ⟨_, rfl, s.getV_setV_advance_self x s.dt, s.setV_advance_frame x s.dt⟩,
    ⟨_, rfl, rfl, s.setDelay_advance_frame (s.getV x)⟩,
    ⟨_, rfl, rfl, s.setSound_advance_frame (s.getV x)⟩⟩

/-! ### The sound observer -/

theorem State.isSoundActive_iff (s : State) : s.isSoundActive = true ↔ 0 < s.st.toNat := decide_eq_true_iff

theorem State.isSoundActive_iff_ne_zero (s : State) : s.isSoundActive = true ↔ s.st ≠ 0#8 := by
  rw [State.isSoundActive_iff, Nat.pos_iff_ne_zero]
  exact BitVec.toNat_ne_iff_ne (y := 0#8)

theorem State.isSoundActive_eq_false_iff (s : State) : s.isSoundActive = false ↔ s.st = 0#8 := by
  rw [← Bool.not_eq_true, State.isSoundActive_iff_ne_zero, not_not]

theorem State.tickTimers_st (s : State) : s.tickTimers.st = countDown s.st := rfl

/-- Settles O37: the sound follows `ST`, which `LD ST` sets to `Vx` and a tick takes from 1 to 0. -/
theorem observersFollowTheState : Obligations.ObserversFollowTheState := by
  refine ⟨State.isSoundActive_iff, fun _ _ _ => rfl, fun x s => ⟨_, rfl, ?ldSt⟩, fun s hs => ⟨s.tickTimers, rfl, ?tick⟩⟩
  case ldSt => exact (s.setSound (s.getV x)).advance.isSoundActive_iff_ne_zero
  case tick =>
    rw [State.isSoundActive_eq_false_iff, State.tickTimers_st, hs]
    rfl

end Sys2Proof.Machine
end

section
/-!
PROOFS. The errors (60_exceptions R130 to R139): one rule for each instruction that raises, from these the table of R132 as what
`exec` and a step of the core answer, and what the core holds after an error.
-/

namespace Sys2Proof.Machine

variable {s t : State} {i : Instr} {f : Fault} {op : HostOp} {x y : Reg} {nnn : Addr} {n : Nat}

/-! ### The instructions that raise -/

theorem exec_ret_eq_fault :
    exec .ret s = .fault f ↔ s.sp = 0 ∧ f = .stackUnderflow ⟨some (encode .ret), s.pc, none⟩ := by
  refine ⟨fun h => ⟨?_, exec_ret_fault h⟩, fun ⟨h, hf⟩ => hf ▸ exec_ret_of_sp_eq_zero h⟩
  exact (Fin.eq_zero_or_eq_succ s.sp).resolve_right fun ⟨_, hj⟩ => nomatch h.symm.trans (exec_ret_of_sp_eq_succ hj)

theorem exec_call_eq_fault :
    exec (.call nnn) s = .fault f ↔ s.sp = 16 ∧ f = .stackOverflow ⟨some (encode (.call nnn)), s.pc, none⟩ := by
  refine ⟨fun h => ⟨?_, exec_call_fault h⟩, fun ⟨h, hf⟩ => hf ▸ exec_call_of_sp_eq_last h nnn⟩
  exact (Fin.eq_castSucc_or_eq_last s.sp).resolve_left
    fun ⟨_, hj⟩ => nomatch h.symm.trans (exec_call_of_sp_eq_castSucc hj nnn)

/-- An outcome that is a next state where a condition fails, and one fault where it holds, is a fault exactly there. -/
theorem eq_fault_iff_of_cases {o : Result} {p : Prop} {f' : Fault} (hnext : ¬p → ∃ t, o = .next t)
    (hfault : p → o = .fault f') : o = .fault f ↔ p ∧ f = f' := by
  by_cases hp : p
  · simp [hfault hp, hp, eq_comm]
  · obtain ⟨t, ht⟩ := hnext hp
    simp [ht, hp]

/-- An instruction under the block check raises exactly where its block leaves memory (42_index_memory R108). -/
theorem exec_eq_fault_of_blockCheck (h : exec i s = if s.blockFits n then .next t else raiseBlock i s) :
    exec i s = .fault f ↔
      0xFFF < s.index.toNat + n ∧ f = .addressOutOfRange ⟨some (encode i), s.pc, some 0x1000⟩ := by
  obtain ⟨completes, fails, -⟩ := exec_under_blockCheck h
  exact eq_fault_iff_of_cases (fun hle => ⟨t, completes (Nat.le_of_not_lt hle)⟩) fails

/-- `DRW` raises exactly where its `n` bytes leave memory, so never for `n = 0`. -/
theorem exec_drw_eq_fault : exec (.drw x y n) s = .fault f ↔ (1 ≤ n ∧ 0xFFF < s.index.toNat + n - 1) ∧
    f = .addressOutOfRange ⟨some (encode (.drw x y n)), s.pc, some 0x1000⟩ := by
  obtain ⟨completes, fails, -⟩ := exec_drw_checked x y n s
  exact eq_fault_iff_of_cases (fun hfits => completes (by omega)) fails

/-! ### The table -/

/-- An instruction raises exactly what its row of 60_exceptions R132 says, with its own encoding as the word, and never
without a row. -/
theorem exec_eq_fault : exec i s = .fault f ↔ InstrRaises i (encode i) s f := by
  cases i with
  | ret => simp [InstrRaises, exec_ret_eq_fault]
  | call => simp [InstrRaises, exec_call_eq_fault]
  | drw => simp [InstrRaises, exec_drw_eq_fault]
  | ldB =>
    have hrow : 0xFFE ≤ s.index.toNat ↔ 0xFFF < s.index.toNat + 2 := by omega
    rw [exec_eq_fault_of_blockCheck (n := 2) rfl]
    simp [InstrRaises, hrow]
  | ldMemV x =>
    rw [exec_eq_fault_of_blockCheck (n := x.val) rfl]
    simp [InstrRaises]
  | ldVMem x =>
    rw [exec_eq_fault_of_blockCheck (n := x.val) rfl]
    simp [InstrRaises]
  | _ => exact iff_of_false (fun h => nomatch h) (by simp [InstrRaises])

/-- Settles O41: the step goes through the fetch, the decoder and the instruction, and each stage answers its row. -/
theorem stepRaisesExactlyTheTable : Obligations.StepRaisesExactlyTheTable := by
  intro s f
  cases hm : s.mode with
  | awaitingKey => simp [State.coreStep_of_awaitingKey hm]
  | running =>
    by_cases hpc : s.pc = 0xFFF#12
    · rw [State.coreStep_of_fetch_eq_none hm (State.fetch_eq_none.2 hpc)]
      simp [StepRaises, hpc, eq_comm]
    have hw : s.fetch = some (wordAtPc s) := State.fetch_eq_some.2 ⟨hpc, rfl⟩
    cases hd : decode (wordAtPc s) with
    | error e =>
      rw [State.coreStep_of_unknown hm hw (by simp [hd])]
      simp [StepRaises, hpc, hd, eq_comm]
    | ok i =>
      obtain ⟨-, henc⟩ := decode_eq_ok.1 hd
      rw [State.coreStep_exec hm hw hd, exec_eq_fault, henc]
      simp [StepRaises, hpc, hd]

/-! ### `InvalidRegister` -/

theorem not_instrRaises_invalidRegister (i : Instr) (w : InstrWord) (s : State) (e : ErrorRecord) :
    ¬InstrRaises i w s (.invalidRegister e) := by
  simp [InstrRaises]

theorem not_stepRaises_invalidRegister (s : State) (e : ErrorRecord) : ¬StepRaises s (.invalidRegister e) := by
  simp [StepRaises, not_instrRaises_invalidRegister]

/-- The only error of a load (20_memory R47). -/
theorem State.loadProgram_fault {bytes : List Byte} (h : s.loadProgram bytes = .fault f) : f = .programTooLarge := by
  unfold State.loadProgram at h
  split at h
  · split at h
    · cases h
    · exact (Host.Outcome.fault.inj h).symm
  · cases h

/-- An operation of the host that fails is a load of too many bytes, or a step that fails by the table. -/
theorem perform_fault (h : s.perform op = .fault f) :
    f = .programTooLarge ∨ ∃ b, op = .step b ∧ StepRaises s f := by
  cases op with
  | reset | tickTimers | setKey => nomatch h
  | step b =>
    obtain ⟨-, hr⟩ := (stepRaisesExactlyTheTable (s.beginOp (.step b)) f).1 h
    exact .inr ⟨b, rfl, hr⟩
  | loadProgram bytes => exact .inl (State.loadProgram_fault h)

/-- Settles O42: no row of the table has the kind, and neither has the error of a load. -/
theorem invalidRegisterNeverRaised : Obligations.InvalidRegisterNeverRaised := by
  refine ⟨fun s e h => ?step, fun i s e h => not_instrRaises_invalidRegister i _ s e (exec_eq_fault.1 h)⟩
  case step =>
    obtain hload | ⟨b, -, hr⟩ := perform_fault h
    · cases hload
    · exact not_stepRaises_invalidRegister _ e hr

/-! ### The core after an error -/

/-- An error other than an unknown opcode under `SKIP` leaves the state (60_exceptions R133). -/
theorem State.afterFault_of_not_skipped (h : ¬(s.cfg.unknownOpcodePolicy = .skip ∧ ∃ e, f = .unknownOpcode e)) :
    s.afterFault f = s := by
  cases f with
  | unknownOpcode e =>
    cases hp : s.cfg.unknownOpcodePolicy with
    | halt => exact State.afterFault_unknown_halt hp
    | skip => exact absurd ⟨hp, e, rfl⟩ h
  | _ => rfl

/-- An error writes `PC` at most. -/
theorem keepsOutside_afterFault (ps : List Part) (s : State) (f : Fault) : KeepsOutside ps s (s.afterFault f) := by
  by_cases h : s.cfg.unknownOpcodePolicy = .skip ∧ ∃ e, f = .unknownOpcode e
  · obtain ⟨hp, e, rfl⟩ := h
    rw [State.afterFault_unknown_skip hp]
    exact keepsOutside_setPc ps s _
  · rw [State.afterFault_of_not_skipped h]
    exact fun p _ => .refl p s

/-- An operation begins by changing the host's side alone. -/
theorem State.beginOp_eq_setEnv (s : State) (op : HostOp) : ∃ e, s.beginOp op = s.setEnv e := by
  cases op with
  | step b => exact ⟨_, rfl⟩
  | reset | loadProgram | tickTimers | setKey => exact ⟨s.env, rfl⟩

/-- What a failing operation leaves is what its error leaves, on another host's side. -/
theorem State.afterStepFault_eq (s : State) (f : Fault) : ∃ e, s.afterStepFault f = (s.setEnv e).afterFault f := by
  obtain ⟨e, hnext, -⟩ := s.nextOp_snd
  obtain ⟨e', hbegin⟩ := (s.setEnv e).beginOp_eq_setEnv s.nextOp.1
  exact ⟨e', by rw [State.afterStepFault, hnext, hbegin, State.setEnv_setEnv]⟩

/-- Settles O44: taking the operation changes the host's side, and the error `PC` at most. -/
theorem failingStepLeavesTheCore : Obligations.FailingStepLeavesTheCore := by
  intro s f _
  obtain ⟨e, hafter⟩ := s.afterStepFault_eq f
  rw [hafter]
  have hkept := keepsOutside_afterFault [] (s.setEnv e) f
  refine ⟨?frame, (hkept .setup List.not_mem_nil).1, fun h => ?stays, fun hp hf => ?skips⟩
  case frame =>
    exact ((keepsOutside_setEnv (.head _) s e).trans (keepsOutside_afterFault _ _ f)).onlyChanges
  case stays => rw [State.afterFault_of_not_skipped (s := s.setEnv e) h, State.setEnv_pc]
  case skips =>
    obtain ⟨_, rfl⟩ := hf
    rw [State.afterFault_unknown_skip (s := s.setEnv e) hp]
    rfl

/-- The conditions of the table do not speak of the host's side, so a failing step fails on any. -/
theorem State.coreStep_fault_setEnv (h : s.coreStep = .fault f) (e : Env) : (s.setEnv e).coreStep = .fault f :=
  (stepRaisesExactlyTheTable (s.setEnv e) f).2 ((stepRaisesExactlyTheTable s f).1 h)

/-- Settles O45: the error leaves all but the host's side, and the table does not speak of that. -/
theorem repeatedStepFailsAgain : Obligations.RepeatedStepFailsAgain := by
  intro s f b b' rest hs h halt
  have hafter : s.afterStepFault f = s.setEnv ⟨.step b' :: rest, b, s.env.draws, false⟩ := by
    have hbegin : s.nextOp.2.beginOp s.nextOp.1 = s.setEnv ⟨.step b' :: rest, b, s.env.draws, false⟩ := by
      simp [State.nextOp, hs, State.beginOp]
    rw [State.afterStepFault, hbegin]
    refine State.afterFault_of_not_skipped fun ⟨hskip, e, he⟩ => ?_
    cases hskip.symm.trans (halt e he)
  rw [step_of_script hs] at h
  rw [hafter, step_of_script rfl]
  exact State.coreStep_fault_setEnv h ⟨rest, b', s.env.draws, false⟩

end Sys2Proof.Machine
end

section
/-!
PROOFS. The tick (60_exceptions R145): what it changes, and that no instruction but the three that name a timer can tell when
it comes.
-/

namespace Sys2Proof.Machine

/-- Settles O33: a tick is one write of each timer, of its count less one. -/
theorem tickCountsBothTimersDown : Obligations.TickCountsBothTimersDown := by
  intro s
  have hkept : KeepsOutside [.delay, .sound] s s.tickTimers :=
    (keepsOutside_setDelay (by decide) s _).trans (keepsOutside_setSound (by decide) _ _)
  exact ⟨s.tickTimers, rfl, countDown_toNat s.dt, countDown_toNat s.st, rfl, hkept.onlyChanges⟩

/-- The step of `I` after a dump or a load commutes with a tick. -/
theorem State.tickTimers_bumpIndex_advance (s : State) (x : Reg) :
    (s.tickTimers.bumpIndex x).advance = (s.bumpIndex x).advance.tickTimers := by
  rw [State.bumpIndex_eq, State.bumpIndex_eq]
  rfl

/-- Settles O51: the instruction passes the same check after the tick, and writes other fields than the timers from other
fields than the timers. -/
theorem ticksCommuteWithInstructions : Obligations.TicksCommuteWithInstructions := by
  intro i s t hi h
  cases i with
  | ldVDt x => exact absurd rfl (hi x).1
  | ldDtV x => exact absurd rfl (hi x).2.1
  | ldStV x => exact absurd rfl (hi x).2.2
  | ret =>
    obtain ⟨hs, rfl⟩ := execRet_next h
    exact exec_ret_of_sp_eq_succ (j := ⟨s.sp.val - 1, by omega⟩) (Fin.ext (Nat.sub_add_cancel hs).symm)
  | call nnn =>
    obtain ⟨hs, rfl⟩ := execCall_next h
    exact exec_call_of_sp_eq_castSucc (s := s.tickTimers) (j := ⟨s.sp.val, hs⟩) rfl nnn
  | ldB x =>
    obtain ⟨hb, rfl⟩ := execLdB_next h
    exact if_pos hb
  | ldMemV x =>
    obtain ⟨hb, rfl⟩ := execLdMemV_next h
    have hbump := (s.storeBytes (s.blockAddr 0) (s.regsUpTo x)).tickTimers_bumpIndex_advance x
    exact (if_pos hb).trans (congrArg Host.Outcome.next hbump)
  | ldVMem x =>
    obtain ⟨hb, rfl⟩ := execLdVMem_next h
    have hbump := (s.setRegs (s.regsLoaded x)).tickTimers_bumpIndex_advance x
    exact (if_pos hb).trans (congrArg Host.Outcome.next hbump)
  | drw x y n =>
    obtain ⟨hb, rfl⟩ := execDrw_next h
    exact if_pos hb
  | _ =>
    obtain rfl := Host.Outcome.next.inj h
    rfl

end Sys2Proof.Machine
end

section
/-!
PROOFS. The end of a program (70_reset R169): a jump to itself changes nothing of the core, and a completed program stays
completed through every step, tick and key event.
-/

namespace Sys2Proof.Machine

variable {s t : State} {op : HostOp}

/-! ### One operation of the host -/

/-- Completion is a matter of memory, `MODE` and `PC`. -/
theorem State.Completed.of_kept (h : s.Completed) (hm : Part.memory.Kept s t) (hw : Part.wait.Kept s t)
    (hpc : t.pc = s.pc) : t.Completed := by
  obtain ⟨hmode, w, hf, hd⟩ := h
  exact ⟨hw.1.trans hmode, w, (State.fetch_of_kept hm hpc).trans hf, hpc ▸ hd⟩

/-- A change of the host's side does not uncomplete a program. -/
theorem State.Completed.setEnv (h : s.Completed) (e : Env) : (s.setEnv e).Completed :=
  h.of_kept ⟨rfl, rfl⟩ ⟨rfl, rfl⟩ rfl

/-- The step of a completed program jumps to where it stands, so it leaves the core it found (40_control_flow R82). -/
theorem State.Completed.coreStep (h : s.Completed) : s.coreStep = .next s := by
  obtain ⟨hm, w, hf, hd⟩ := h
  exact State.coreStep_exec hm hf hd

/-- A `step` of a completed program changes the host's side alone. -/
theorem State.Completed.perform_step (h : s.Completed) (b : Byte) :
    s.perform (.step b) = .next (s.setEnv ⟨s.env.script, b, s.env.draws, false⟩) :=
  (h.setEnv _).coreStep

theorem keepsOutside_tickTimers {ps : List Part} (hd : .delay ∈ ps) (hs : .sound ∈ ps) (s : State) :
    KeepsOutside ps s s.tickTimers :=
  (keepsOutside_setDelay hd s _).trans (keepsOutside_setSound hs _ _)

/-- Outside the wait a key event sets its flag and nothing else (45_input R121). -/
theorem State.setKey_of_running (hm : s.mode = .running) (k : Key) (pressed : Bool) :
    s.setKey k pressed = s.setKeyFlag k pressed :=
  State.setKey_of_not_endsWait fun ⟨ha, _⟩ => nomatch hm.symm.trans ha

/-- What goes on with a completed program completes, and leaves `PC`, the script, and every part but the timers, the keys
and the host's side. -/
theorem State.Completed.perform_goesOn (h : s.Completed) (hop : op.goesOn = true) :
    ∃ t, s.perform op = .next t ∧ t.pc = s.pc ∧ t.env.script = s.env.script ∧
      KeepsOutside [.delay, .sound, .keys, .setup] s t := by
  cases op with
  | reset | loadProgram => nomatch hop
  | step b => exact ⟨_, h.perform_step b, rfl, rfl, keepsOutside_setEnv (by decide) s _⟩
  | tickTimers => exact ⟨_, rfl, rfl, rfl, keepsOutside_tickTimers (by decide) (by decide) s⟩
  | setKey k pressed =>
    have hset : s.perform (.setKey k pressed) = .next (s.setKeyFlag k pressed) :=
      congrArg Host.Outcome.next (State.setKey_of_running h.1 k pressed)
    exact ⟨_, hset, rfl, rfl, keepsOutside_setKeyFlag (by decide) s k pressed⟩

/-! ### The host's script -/

/-- The host has scripted only steps, ticks and key events. -/
def State.ScriptGoesOn (s : State) : Prop := ∀ op ∈ s.env.script, op.goesOn = true

/-- A host that goes on performs an operation that goes on, and goes on after it; with nothing scripted it steps. -/
theorem State.ScriptGoesOn.step_eq (h : s.ScriptGoesOn) :
    ∃ op e, step s = (s.setEnv e).perform op ∧ op.goesOn = true ∧ (s.setEnv e).ScriptGoesOn := by
  cases hs : s.env.script with
  | nil => exact ⟨_, _, step_of_empty_script hs, rfl, fun _ ho => nomatch ho⟩
  | cons op rest =>
    rw [State.ScriptGoesOn, hs] at h
    exact ⟨op, _, step_of_script hs, h op List.mem_cons_self, fun op' ho => h op' (.tail op ho)⟩

/-! ### The invariant of a completed run -/

/-- What every state `t` of a run from a completed `s` keeps, while the host goes on. -/
structure CompletedSince (s t : State) : Prop where
  completed : t.Completed
  pc : t.pc = s.pc
  kept : KeepsOutside [.delay, .sound, .keys, .setup] s t
  goesOn : t.ScriptGoesOn

theorem CompletedSince.refl (h : s.Completed) (hs : s.ScriptGoesOn) : CompletedSince s s :=
  ⟨h, rfl, fun p _ => .refl p s, hs⟩

/-- Every state of a completed run has a next state, which belongs to it too. -/
theorem CompletedSince.step (h : CompletedSince s t) : ∃ u, step t = .next u ∧ CompletedSince s u := by
  obtain ⟨op, e, hstep, hop, hgoes⟩ := h.goesOn.step_eq
  obtain ⟨u, hu, hpc, hscript, hkept⟩ := (h.completed.setEnv e).perform_goesOn hop
  have htu : KeepsOutside [.delay, .sound, .keys, .setup] t u := (keepsOutside_setEnv (by decide) t e).trans hkept
  refine ⟨u, hstep.trans hu, ?_, hpc.trans h.pc, h.kept.trans htu, ?_⟩
  · exact h.completed.of_kept (htu .memory (by decide)) (htu .wait (by decide)) hpc
  · rw [State.ScriptGoesOn, hscript]
    exact hgoes

/-- Every state reached from a completed program belongs to the completed run. -/
theorem CompletedSince.of_reaches (h : s.Completed) (hs : s.ScriptGoesOn) (hr : Reaches s t) : CompletedSince s t := by
  induction hr with
  | here => exact .refl h hs
  | step _ hstep ih =>
    obtain ⟨u, hu, hsince⟩ := ih.step
    exact Host.Outcome.next.inj (hu.symm.trans hstep) ▸ hsince

/-- Settles O58: what `CompletedSince` says holds of every reachable state, by induction on the steps of the run, and gives
each a next state. -/
theorem completedProgramRunsSafely : Obligations.CompletedProgramRunsSafely := by
  intro s h hs
  have since {t : State} (hr : Reaches s t) : CompletedSince s t := .of_reaches h hs hr
  refine ⟨fun t hr => ?_, fun t hr => ?_⟩
  · obtain ⟨u, hu, -⟩ := (since hr).step
    exact ⟨u, hu⟩
  · exact ⟨(since hr).completed, (since hr).pc, (since hr).kept.onlyChanges⟩

/-- Settles O57: taking the `step` off the script and performing it change the host's side alone. -/
theorem jumpToSelfStays : Obligations.JumpToSelfStays := by
  intro s b rest h hs
  have hstep : step s = .next (s.setEnv ⟨rest, b, s.env.draws, false⟩) :=
    (step_of_script hs).trans ((h.setEnv _).perform_step b)
  exact ⟨_, hstep, h.setEnv _, rfl, (keepsOutside_setEnv (by decide) s _).onlyChanges, rfl⟩

end Sys2Proof.Machine
end

section
/-!
PROOFS. The refusals (70_reset R165, decision D26): a load is refused exactly when it is closed, and nothing else ever is.
-/

namespace Sys2Proof.Machine

variable {s t : State} {i : Instr} {r : Refusal} {op : HostOp}

/-! ### A late load -/

/-- A closed load is refused, whatever its bytes. -/
theorem State.loadProgram_of_closed (ho : s.env.loadOpen = false) (bytes : List Byte) :
    s.loadProgram bytes = .refused .loadOutOfContract := by
  simp [State.loadProgram, ho]

/-- Settles O35: a step closes the load before it runs, and no instruction changes the host's side; an accepted load closes
it as it stores. -/
theorem lateLoadRefused : Obligations.LateLoadRefused := by
  refine ⟨fun s bytes ho => State.loadProgram_of_closed ho bytes, fun s t b h => ?step, fun s t bytes h => ?load⟩
  case step =>
    obtain ⟨-, henv⟩ : Part.setup.Kept (s.beginOp (.step b)) t := State.coreStep_kept h setup_notMem_mayChange
    rw [henv]
    rfl
  case load =>
    obtain ⟨-, -, rfl⟩ := State.loadProgram_next h
    rfl

/-! ### Nothing else is refused -/

/-- An instruction that completes or raises on a check of its block is not refused (42_index_memory R108). -/
theorem exec_ne_refused_of_check {fits : Bool} (h : exec i s = if fits then .next t else raiseBlock i s) :
    exec i s ≠ .refused r := by
  cases fits <;> simp [h, raiseBlock, raise_def]

/-- No instruction is refused: it answers a next state, or fails its check of the stack or of its block and raises. -/
theorem exec_ne_refused (i : Instr) (s : State) (r : Refusal) : exec i s ≠ .refused r := by
  cases i with
  | ret =>
    obtain hz | ⟨j, hj⟩ := Fin.eq_zero_or_eq_succ s.sp
    · simp [exec_ret_of_sp_eq_zero hz]
    · simp [exec_ret_of_sp_eq_succ hj]
  | call nnn =>
    obtain ⟨j, hj⟩ | hl := Fin.eq_castSucc_or_eq_last s.sp
    · simp [exec_call_of_sp_eq_castSucc hj]
    · simp [exec_call_of_sp_eq_last hl]
  | ldB x => exact exec_ne_refused_of_check (fits := s.blockFits 2) rfl
  | ldMemV x | ldVMem x => exact exec_ne_refused_of_check (fits := s.blockFits x.val) rfl
  | drw x y n => exact exec_ne_refused_of_check (fits := s.spriteFits n) rfl
  | _ => exact nofun

/-- Neither is a step of the core, whatever it fetches. -/
theorem State.coreStep_ne_refused (s : State) (r : Refusal) : s.coreStep ≠ .refused r := by
  cases hm : s.mode with
  | awaitingKey => simp [State.coreStep_of_awaitingKey hm]
  | running =>
    cases hf : s.fetch with
    | none => simp [State.coreStep_of_fetch_eq_none hm hf]
    | some w =>
      by_cases hd : ∃ i, decode w = .ok i
      · obtain ⟨i, hi⟩ := hd
        rw [State.coreStep_exec hm hf hi]
        exact exec_ne_refused i s r
      · simp [State.coreStep_of_unknown hm hf (not_exists.1 hd)]

/-- A refused load was closed. -/
theorem State.loadProgram_refused {bytes : List Byte} (h : s.loadProgram bytes = .refused r) :
    r = .loadOutOfContract ∧ s.env.loadOpen = false := by
  cases ho : s.env.loadOpen with
  | false => exact ⟨Host.Outcome.refused.inj (h.symm.trans (State.loadProgram_of_closed ho bytes)), rfl⟩
  | true =>
    rw [State.loadProgram_of_open ho] at h
    split at h <;> cases h

/-- A refused operation of the host is a late load. -/
theorem perform_refused (h : s.perform op = .refused r) :
    r = .loadOutOfContract ∧ s.env.loadOpen = false ∧ ∃ bytes, op = .loadProgram bytes := by
  cases op with
  | reset | tickTimers | setKey => nomatch h
  | step b => exact absurd h (State.coreStep_ne_refused _ r)
  | loadProgram bytes =>
    obtain ⟨hr, ho⟩ := State.loadProgram_refused h
    exact ⟨hr, ho, bytes, rfl⟩

/-- Settles O43: the refused operation is a late load, so it is not the `step` of an empty script but the script's first
operation. -/
theorem onlyLateLoadsAreRefused : Obligations.OnlyLateLoadsAreRefused := by
  refine ⟨exec_ne_refused, fun s r h => ?_⟩
  cases hs : s.env.script with
  | nil =>
    rw [step_of_empty_script hs] at h
    obtain ⟨-, -, bytes, hop⟩ := perform_refused h
    cases hop
  | cons op rest =>
    rw [step_of_script hs] at h
    obtain ⟨hr, ho, bytes, rfl⟩ := perform_refused h
    exact ⟨hr, ho, bytes, rest, rfl⟩

end Sys2Proof.Machine
end

section
/-!
PROOFS. The reset (70_reset R160): its values, at any parameters and whatever the host does next, and the invariant of the
machine there.
-/

namespace Sys2Proof.Machine

/-- With nothing listed, memory reads as the font at `FONT_BASE` and 0 elsewhere; every other element is written out. -/
theorem State.resetWith_atReset (cfg : Config) (env : Env) : AtReset (State.resetWith cfg env) where
  font j := Memory.resetByte_font cfg j
  zeroElsewhere a _ hne := Memory.resetByte_zero cfg a hne
  regs r := by simp [State.getV, Vector.get_eq_getElem]
  index := rfl
  pc := rfl
  sp := rfl
  slots j := by simp [State.slot, Vector.get_eq_getElem]
  delay := rfl
  sound := rfl
  pixels := Framebuffer.pixel_blank
  keys k := by simp [State.keyDown, Vector.get_eq_getElem]
  mode := rfl
  waitX := rfl

/-- No sound is heard at the values of a reset. -/
theorem AtReset.isSoundActive {t : State} (h : AtReset t) : t.isSoundActive = false :=
  t.isSoundActive_eq_false_iff.2 h.sound

/-- Settles O36: `reset` answers the values of R160 at the parameters it found, and takes nothing else from the state but
the host's side. -/
theorem resetSetsEveryElement : Obligations.ResetSetsEveryElement := by
  have initial : AtReset State.reset := State.resetWith_atReset _ _
  refine ⟨initial, initial.isSoundActive, fun s => ?_⟩
  have after : AtReset (State.resetWith s.cfg { s.env with loadOpen := true }) := State.resetWith_atReset _ _
  exact ⟨_, rfl, after, rfl, after.isSoundActive, fun col row => after.pixels row col⟩

/-- Settles O39: no byte is listed, and the core runs. -/
theorem resetMeetsInvariant : Obligations.ResetMeetsInvariant := .of_running (Memory.wf_nil _) rfl

end Sys2Proof.Machine
end
